-- ==== Sys2Proof/Word.lean ====
section
/-! DEFINITION. The plainest types of the part: a byte of a link frame, a level, a panel position.
-/

namespace Sys2Proof

/-- One byte of a link frame, a response or the table image (R168, R181). -/
abbrev Byte := BitVec 8

/-- A level, 0 the darkest and 15 the lightest (R1). UNKNOWN is not a level. -/
abbrev Level := Fin 16

/-- A position (x, y): column x and row y (R1). -/
abbrev Pos := Nat × Nat

end Sys2Proof
end

