-- ==== Sys2Proof/Config.lean ====
section
/-! DEFINITION. What the part fixes: capacities, limits of the settings and their defaults. The manual leaves no
value of an effect open, so there is no free value here.
-/

namespace Sys2Proof.Config

/-- The largest geometry, 2048 × 1600 (R2, R52). -/
def maxWidth : Nat := 2048
def maxHeight : Nat := 1600
/-- The smallest geometry SET_GEOMETRY accepts (R67). -/
def minWidth : Nat := 64
def minHeight : Nat := 64
/-- The power-on geometry (R2, R52). -/
def defaultWidth : Nat := 1448
def defaultHeight : Nat := 1072

/-- Entries a write stream holds (R59). -/
def streamCapacity : Nat := 64
/-- Requests in the Update Queue and both streams together, and of one port (R72, R74). -/
def queuePlaces : Nat := 24
def portPlaces : Nat := 16
/-- Records a done queue holds (R175). -/
def doneCapacity : Nat := 16
/-- Bytes of the table memory (R16). -/
def tableBytes : Nat := 65536

/-- Clamped temperature range (R40). -/
def minTemperature : Int := -40
def maxTemperature : Int := 85
/-- Residue and wear saturate here (R3). -/
def residueBound : Int := 127
def wearBound : Nat := 15
/-- The saturated count holds here (R8). -/
def saturatedBound : Nat := 65535

/-- Defaults of the settings: R39, R106, R86, R148, R162. -/
def defaultHysteresis : Nat := 1
def defaultStale : Nat := 60
def defaultResidueLimit : Nat := 64
def defaultWearLimit : Nat := 12
def defaultZone : Nat := 1500
def defaultRise : Nat := 30
def defaultPark : Nat := 800
def defaultFall : Nat := 15
def defaultDoze : Nat := 50

/-- What GET_ID answers (R178). -/
def partNumber : Nat := 2440
def revision : Nat := 1
def tableFormat : Nat := 1

end Sys2Proof.Config
end

