-- ==== Sys2Proof/Syntax.lean ====
section
/-! DEFINITION. The commands of the block: one constructor for each row of spec/opcode_table.json, with the row's
operands. A link command carries its port and its request bytes, the bytes taken after the command code (R168).
-/

namespace Sys2Proof

/-- The two command links (R1, R168). -/
inductive Port where
  | a
  | b
deriving DecidableEq, Repr

/-- The two moments at which a streaming pixel command acts: its command byte is taken, and its select rises
(R62, R63, R66). -/
inductive Phase where
  | code
  | rise
deriving DecidableEq, Repr

/-- The two accesses of a survey visit (R98): the Image Store read alone, or whatever of the visit is left. -/
inductive VisitPart where
  | imageRead
  | whole
deriving DecidableEq, Repr

/-- The commands and events of the part, one per row of spec/opcode_table.json. -/
inductive Instr where
  /-- POWER_ON_RESET; `resetN` is the level RESET_N then has: low when RESET_N fell, high when power was applied
  with RESET_N high (R161). -/
  | powerOnReset (resetN : Bool)
  | initSweepEnd
  | selectFall (p : Port)
  | wakingEnd
  /-- UNKNOWN_COMMAND; `taken` are the bytes taken, the code first (R169). -/
  | unknownCommand (p : Port) (taken : List Byte)
  | setWindow (p : Port) (req : List Byte)
  | setFormat (p : Port) (req : List Byte)
  | setOrientation (p : Port) (req : List Byte)
  | writePixels (p : Port) (ph : Phase)
  | writeContinue (p : Port) (ph : Phase)
  | pixelDataByte (p : Port) (b : Byte)
  | pixelByteDiscarded (p : Port)
  | fillWindow (p : Port) (req : List Byte)
  | readPixels (p : Port) (ph : Phase)
  | readbackLevelRead (p : Port)
  | readbackByte (p : Port)
  | submitUpdate (p : Port) (req : List Byte)
  | withdraw (p : Port) (req : List Byte)
  | reserveZone (p : Port) (req : List Byte)
  | releaseZone (p : Port) (req : List Byte)
  | reportTemperature (p : Port) (req : List Byte)
  | tableBegin (p : Port) (req : List Byte)
  | tableData (p : Port) (req : List Byte)
  | tableEnd (p : Port) (req : List Byte)
  | tableAbort (p : Port) (req : List Byte)
  | validationEnd
  | getTableInfo (p : Port) (req : List Byte)
  | setGeometry (p : Port) (req : List Byte)
  | geometrySweepEnd
  | setLimits (p : Port) (req : List Byte)
  | setTimers (p : Port) (req : List Byte)
  | setFrameMark (p : Port) (req : List Byte)
  | getEvents (p : Port) (req : List Byte)
  | setEventEnable (p : Port) (req : List Byte)
  | getDone (p : Port) (req : List Byte)
  | getResult (p : Port) (req : List Byte)
  | getStatus (p : Port) (req : List Byte)
  | getScan (p : Port) (req : List Byte)
  | getPixel (p : Port) (req : List Byte)
  | getId (p : Port) (req : List Byte)
  | sleep (p : Port) (req : List Byte)
  | portReset (p : Port) (req : List Byte)
  | partReset (p : Port) (req : List Byte)
  | drainPixelEntry (p : Port)
  | drainFillPixel (p : Port)
  | drainSubmitEntry (p : Port)
  | surveyStart
  | surveyVisit (part : VisitPart)
  | surveyEnd
  | scanStart
  /-- FRAME_ROW; `n` is how many pixels of the row being taken are visited in this step (R138, R140: a trip may
  fall inside a row), the rest of the row when `n` reaches its end. -/
  | frameRow (n : Nat)
  | frameBoundary
  | retireVisit
  | retireWalkEnd
  | railGoodAsserted
  | railLost
  | riseTimeout
  | parkTimerExpiry
  | fallTimerExpiry
  | staleTimerExpiry
  | zoneLapse (z : Fin 4)
  | dozeTimerExpiry
  | resetNRise
  | discardedTransactionRise (p : Port)
deriving DecidableEq, Repr

end Sys2Proof
end

