-- ==== Sys2Proof/WellFormed.lean ====
section
/-! DEFINITION. What a command of the queue must satisfy to stand for a step of the part: an unknown command's code
names no command (R169), and a step of the frame walk visits at least one pixel (R138). A transaction of any
length is well formed: the part itself judges its length (R169).
-/

namespace Sys2Proof

/-- The command codes of R182. -/
def commandCodes : List Byte :=
  [0x01, 0x02, 0x03, 0x04, 0x05, 0x06, 0x07, 0x10, 0x11, 0x18, 0x19, 0x20, 0x28, 0x29, 0x2A, 0x2B, 0x2C,
   0x30, 0x31, 0x32, 0x33, 0x40, 0x41, 0x42, 0x43, 0x44, 0x45, 0x46, 0x47, 0x50, 0x5A, 0x5B]

/-- No byte was taken, or the first one names no command (R169). -/
def namesNoCommand : List Byte → Bool
  | [] => true
  | c :: _ => !commandCodes.contains c

/-- The command stands for a step the part can be asked to make. -/
def Instr.wellFormed : Instr → Bool
  | .unknownCommand _ taken => namesNoCommand taken
  | .frameRow n => 0 < n
  | _ => true

end Sys2Proof
end

