-- ==== Sys2Proof/Decode.lean ====
section
/-! DEFINITION. Reading commands. No row of spec/opcode_table.json carries bits, so no word spells a command. What
the manual does encode are the link frames of R182: the bytes of a transaction, the command code first.
-/

namespace Sys2Proof

/-- The command that the bits of a table row spell: none, since the table gives no row any bits. -/
def decodeTableWord (_nbits _w : Nat) : Option Instr := none

/-- The command that the bytes taken in a transaction of port `p` name, by the codes of R182. A pixel command stands
for its command byte: its later bytes are commands of their own. -/
def commandOfFrame (p : Port) : List Byte → Instr
  | [] => .unknownCommand p []
  | c :: req =>
    match c with
    | 0x01 => .setWindow p req
    | 0x02 => .setFormat p req
    | 0x03 => .setOrientation p req
    | 0x04 => .writePixels p .code
    | 0x05 => .writeContinue p .code
    | 0x06 => .fillWindow p req
    | 0x07 => .readPixels p .code
    | 0x10 => .submitUpdate p req
    | 0x11 => .withdraw p req
    | 0x18 => .reserveZone p req
    | 0x19 => .releaseZone p req
    | 0x20 => .reportTemperature p req
    | 0x28 => .tableBegin p req
    | 0x29 => .tableData p req
    | 0x2A => .tableEnd p req
    | 0x2B => .tableAbort p req
    | 0x2C => .getTableInfo p req
    | 0x30 => .setGeometry p req
    | 0x31 => .setLimits p req
    | 0x32 => .setTimers p req
    | 0x33 => .setFrameMark p req
    | 0x40 => .getEvents p req
    | 0x41 => .setEventEnable p req
    | 0x42 => .getDone p req
    | 0x43 => .getResult p req
    | 0x44 => .getStatus p req
    | 0x45 => .getScan p req
    | 0x46 => .getPixel p req
    | 0x47 => .getId p req
    | 0x50 => .sleep p req
    | 0x5A => .portReset p req
    | 0x5B => .partReset p req
    | _ => .unknownCommand p (c :: req)

/-- The port and the bytes of the transaction that a link command stands for (R182); none for an event that no
frame sends, and for the parts of a pixel transaction after its command byte. -/
def frameOf : Instr → Option (Port × List Byte)
  | .unknownCommand p taken => some (p, taken)
  | .setWindow p r => some (p, 0x01 :: r)
  | .setFormat p r => some (p, 0x02 :: r)
  | .setOrientation p r => some (p, 0x03 :: r)
  | .writePixels p .code => some (p, [0x04])
  | .writeContinue p .code => some (p, [0x05])
  | .fillWindow p r => some (p, 0x06 :: r)
  | .readPixels p .code => some (p, [0x07])
  | .submitUpdate p r => some (p, 0x10 :: r)
  | .withdraw p r => some (p, 0x11 :: r)
  | .reserveZone p r => some (p, 0x18 :: r)
  | .releaseZone p r => some (p, 0x19 :: r)
  | .reportTemperature p r => some (p, 0x20 :: r)
  | .tableBegin p r => some (p, 0x28 :: r)
  | .tableData p r => some (p, 0x29 :: r)
  | .tableEnd p r => some (p, 0x2A :: r)
  | .tableAbort p r => some (p, 0x2B :: r)
  | .getTableInfo p r => some (p, 0x2C :: r)
  | .setGeometry p r => some (p, 0x30 :: r)
  | .setLimits p r => some (p, 0x31 :: r)
  | .setTimers p r => some (p, 0x32 :: r)
  | .setFrameMark p r => some (p, 0x33 :: r)
  | .getEvents p r => some (p, 0x40 :: r)
  | .setEventEnable p r => some (p, 0x41 :: r)
  | .getDone p r => some (p, 0x42 :: r)
  | .getResult p r => some (p, 0x43 :: r)
  | .getStatus p r => some (p, 0x44 :: r)
  | .getScan p r => some (p, 0x45 :: r)
  | .getPixel p r => some (p, 0x46 :: r)
  | .getId p r => some (p, 0x47 :: r)
  | .sleep p r => some (p, 0x50 :: r)
  | .portReset p r => some (p, 0x5A :: r)
  | .partReset p r => some (p, 0x5B :: r)
  | _ => none

end Sys2Proof
end

