-- ==== Sys2Proof/Machine/State.lean ====
section
/-! DEFINITION. The state of the part as plain data: every register, store, list and mode the manual gives it, the
queue of commands that are waiting, and the state after power-on reset. Each field cites the rule that names it.
-/

namespace Sys2Proof.Machine

/-- Why the machine stops with a fault. The manual gives the part no event that stops it: a rail fault is an event
with an effect (R153, R156). Nothing raises one (Log 34). -/
inductive Fault where
deriving DecidableEq, Repr

/-- Why a command has no meaning. -/
inductive Refusal where
  /-- Raised by `exec` alone, for a row of the table that has no meaning yet; safe. No arm raises it now. -/
  | notModelled (mnemonic : String)
deriving DecidableEq, Repr

/-! ## Geometry, pixels and port contexts -/

/-- A rectangle with inclusive bounds (R1). -/
structure Rect where
  x0 : Nat
  y0 : Nat
  x1 : Nat
  y1 : Nat
deriving DecidableEq, Repr

/-- Which recipe variant a claimed pixel was latched with (R4). -/
inductive Variant where
  | p
  | n
deriving DecidableEq, Repr

/-- A lane, by its index; lane number L of the manual is index L − 1 (R94). -/
abbrev LaneId := Fin 15

/-- A pixel record (R3). `shown` none is UNKNOWN, `lane` none is NONE. -/
structure PixelRecord where
  shown : Option Level
  lane : Option LaneId
  target : Level
  variant : Variant
  residue : Int
  wear : Nat
deriving DecidableEq, Repr

/-- What every record reads after a sweep (R3, R13). -/
def PixelRecord.swept : PixelRecord :=
  { shown := none, lane := none, target := 0, variant := .n, residue := 0, wear := 0 }

/-- A sparse store: cells by address, in strictly rising order, none equal to what an unlisted address reads as. -/
abbrev Store (α : Type) := List (Nat × α)

inductive Orientation where
  | rot0
  | rot90
  | rot180
  | rot270
deriving DecidableEq, Repr

inductive PixelFormat where
  | p1
  | p2
  | p4
deriving DecidableEq, Repr

/-- A port's context (R55). `cursor` none is past end. -/
structure PortContext where
  orientation : Orientation
  mirror : Bool
  window : Rect
  cursor : Option Pos
  format : PixelFormat
deriving DecidableEq, Repr

/-! ## Requests, streams and transactions -/

inductive Policy where
  | hold
  | skip
deriving DecidableEq, Repr

/-- An update request (R70). -/
structure Request where
  port : Port
  tag : Nat
  mode : Nat
  rect : Rect
  policy : Policy
  urgent : Bool
deriving DecidableEq, Repr

/-- A write-stream entry (R59). A fill holds the position it writes next (R60). -/
inductive Entry where
  | pixel (pos : Pos) (v : Level)
  | fill (rect : Rect) (v : Level) (next : Pos)
  | submit (q : Request)
deriving DecidableEq, Repr

/-- The readback of a READ_PIXELS (R66): the port position of the next level to read (none: all read), the levels
granted for the next byte, whether the dummy byte has gone out, whether a byte was clocked past the end. -/
structure Readback where
  pos : Option Pos
  granted : List Level
  dummySent : Bool
  beyond : Bool
deriving DecidableEq, Repr

/-- What a port's select and the transaction under it are (R168). -/
inductive Transaction where
  /-- Select is high. -/
  | closed
  /-- Select is low and no streaming pixel code was taken; `heard`: READY has been high since it fell (R61). -/
  | opened (heard : Bool)
  /-- A pixel write; a byte of it was discarded, a pixel of it ignored (R62, R64). -/
  | writing (lost beyond : Bool)
  /-- A READ_PIXELS (R66). -/
  | reading (r : Readback)
  /-- A transaction discarded whole: begun in INIT, the waking one, or abandoned (R161, R166, R69). -/
  | discarded
deriving DecidableEq, Repr

/-- The result codes (R183). -/
inductive Result where
  | ok | clamped | overrun | lostData | woke
  | badFrame | badParam | duplicateTag | queueFull | halted | unknownTag | tooLate | notOwner | inUse
  | loadInProgress | notLoading | tooLarge | aborted
  | badHeader | sizeMismatch | badBands | badModeRecord | badRecipe | badMap | unknownRowEmpty
deriving DecidableEq, Repr

/-- A transaction that rose during a geometry sweep and is taken at its end (R61). -/
inductive Held where
  /-- A command all of whose bytes were taken. -/
  | command (i : Instr)
  /-- A pixel write, with its result. -/
  | writeEnd (r : Result)
  /-- A transaction of which no byte was taken, behind one that is held (R168, R169; Log 21). -/
  | untaken
deriving DecidableEq, Repr

/-! ## Done records and events -/

/-- How a request ends (00_scope, Terms; R134). -/
inductive UpdateOutcome where
  | completed | empty | withdrawn | faulted | badMode
deriving DecidableEq, Repr

/-- The figures of a done record that only a surveyed lane has (R134). -/
structure DoneFigures where
  band : Option Nat
  framesDriven : Nat
  claimed : Nat
  busySkipped : Nat
  zoneSkipped : Nat
  unknownSkipped : Nat
  saturated : Nat
deriving DecidableEq, Repr

/-- A done record (R83, R134). `figures` none: not applicable. -/
structure DoneRecord where
  tag : Nat
  outcome : UpdateOutcome
  requestedMode : Nat
  finalMode : Nat
  promoted : Bool
  stale : Bool
  figures : Option DoneFigures
deriving DecidableEq, Repr

/-- The event flags (R172), in the order of their bits (R185). -/
inductive Flag where
  | done | doneLost | refused | overrun | lostData | supplyFault | halted | tempStale | zoneLapsed | tableChanged
  | woke | partReset
deriving DecidableEq, Repr

/-- Everything that belongs to one port; `held` in the order of the select edges (R168). The record of data out is the
model's own: the bytes gone out in the transaction, how many of them were of the response, and up to where `dataOut`
stood when READY is first known to have been high, or when the last byte on record was taken (Log 6). -/
structure PortState where
  ctx : PortContext
  stream : List Entry
  result : Result
  response : List Byte
  flags : BitVec 12
  enables : BitVec 12
  done : List DoneRecord
  consent : Bool
  txn : Transaction
  held : List Held
  dataOut : List Byte
  outCount : Nat
  outMark : Nat
deriving DecidableEq, Repr

/-! ## Waveform Table -/

/-- A drive code (R1). -/
inductive Drive where
  | hold
  | pos
  | neg
deriving DecidableEq, Repr

/-- A recipe with the length and net that validation keeps (R19). -/
structure Recipe where
  segments : List (Drive × Nat)
  length : Nat
  net : Int
deriving DecidableEq, Repr

/-- A mode's level set (R18). -/
inductive LevelSet where
  | two
  | four
  | sixteen
deriving DecidableEq, Repr

/-- A mode record (R18). -/
structure ModeRecord where
  levels : LevelSet
  clearing : Bool
  drivesUnchanged : Bool
  acceptsUnknown : Bool
  compensating : Bool
  cost : Nat
  promote : Option Nat
  ratio : Nat
deriving DecidableEq, Repr

/-- A band record (R17). -/
structure BandRecord where
  lower : Int
  period : Nat
deriving DecidableEq, Repr

/-- The header of the image (R16). -/
structure Header where
  version : Nat
  modeCount : Nat
  bandCount : Nat
  staleBand : Nat
  recipeCount : Nat
  length : Nat
deriving DecidableEq, Repr

/-- A checked table (R16 to R20). -/
structure Table where
  header : Header
  bands : List BandRecord
  modes : List ModeRecord
  map : List Nat
  pool : List Recipe
deriving DecidableEq, Repr

/-- The states of the table (R24). -/
inductive TablePhase where
  | empty
  | loading (owner : Port) (validating : Bool)
  | valid
  | invalid (code : Result)
deriving DecidableEq, Repr

/-- The Waveform Table: state, table memory, the count GET_TABLE_INFO reports (R37), and the table when VALID. -/
structure TableUnit where
  phase : TablePhase
  memory : List Byte
  received : Nat
  table : Option Table
deriving DecidableEq, Repr

/-! ## Temperature Unit -/

inductive Freshness where
  | absent
  | fresh
  | stale
deriving DecidableEq, Repr

/-- A timer: stopped, or running since it was started with this time (Log 11). -/
abbrev Timer := Option Nat

/-- The Temperature Unit (R39). -/
structure TempUnit where
  freshness : Freshness
  effective : Option Int
  band : Option Nat
  staleTimer : Timer
  hysteresis : Nat
  staleDuration : Nat
deriving DecidableEq, Repr

/-! ## Zones, lanes and engines -/

/-- An active zone (R86); an inactive one is absent from the Zone Table. -/
structure Zone where
  owner : Port
  rect : Rect
  lapse : Nat
deriving DecidableEq, Repr

/-- Who asks the Image Store arbiter (R53). -/
inductive Requester where
  | portA
  | portB
  | survey
deriving DecidableEq, Repr

inductive LaneState where
  | free | pending | survey | armed | running | retiring
deriving DecidableEq, Repr

/-- The manner in which a lane ends (R130). -/
inductive RetireKind where
  | normal
  | release
  | partialDrive
  | fault
deriving DecidableEq, Repr

/-- A lane record (R94). Fields that R95 calls not applicable in a FREE lane hold placeholders there (Log 14). -/
structure Lane where
  state : LaneState
  owner : Port
  tag : Nat
  requestedMode : Nat
  finalMode : Nat
  promoted : Bool
  policy : Policy
  report : Bool
  rect : Rect
  band : Option Nat
  stale : Bool
  frameCount : Nat
  frameIndex : Nat
  abort : Bool
  kind : Option RetireKind
  claimed : Nat
  changing : Nat
  worn : Nat
  unknownClaimed : Nat
  busySkipped : Nat
  zoneSkipped : Nat
  unknownSkipped : Nat
  saturated : Nat
  longestRequested : Nat
  longestPromoted : Nat
  outcome : Option UpdateOutcome
deriving DecidableEq, Repr

/-- The rest values of a FREE lane (R95). -/
def Lane.rest : Lane :=
  { state := .free, owner := .a, tag := 0, requestedMode := 0, finalMode := 0, promoted := false, policy := .hold,
    report := true, rect := ⟨0, 0, 0, 0⟩, band := none, stale := false, frameCount := 0, frameIndex := 0,
    abort := false, kind := none, claimed := 0, changing := 0, worn := 0, unknownClaimed := 0, busySkipped := 0,
    zoneSkipped := 0, unknownSkipped := 0, saturated := 0, longestRequested := 0, longestPromoted := 0,
    outcome := none }

/-- A survey under way (R97, R98): the lane, the walk position (none: the walk is complete), the limits and
attributes taken at its start, and the level read in the visit under way, if its read is made. -/
structure Survey where
  lane : LaneId
  pos : Option Pos
  residueLimit : Nat
  wearLimit : Nat
  mode : ModeRecord
  promoteMode : Option ModeRecord
  read : Option Level
deriving DecidableEq, Repr

/-- A retire walk under way (R128): the lane, the walk position (none: complete), the final mode's clearing
attribute and cost. -/
structure RetireWalk where
  lane : LaneId
  pos : Option Pos
  clearing : Bool
  cost : Nat
deriving DecidableEq, Repr

/-! ## Frame Scanner, Supply Sequencer, Power Controller -/

/-- The Frame Scanner (R136). `walkRow` and `walkCol` are where the frame walk visits next (R138); `markPulses` counts
the FRAME_MARK pulses given (R143, Log 24). -/
structure Scanner where
  scanning : Bool
  band : Option Nat
  period : Option Nat
  row : Option Nat
  walkRow : Nat
  walkCol : Nat
  counter : Nat
  markRow : Nat
  pendingMark : Option Nat
  markPulses : Nat
deriving DecidableEq, Repr

inductive SupplyState where
  | off | rising | on | falling | tripped | halted
deriving DecidableEq, Repr

inductive TripCause where
  | none
  | riseTimeout
  | railLost
deriving DecidableEq, Repr

/-- The Supply Sequencer (R148) and the level of RAIL_GOOD (R149). -/
structure Supply where
  state : SupplyState
  riseTimer : Timer
  parkTimer : Timer
  fallTimer : Timer
  recovery : Bool
  cause : TripCause
  windDown : Bool
  riseDuration : Nat
  parkDuration : Nat
  fallDuration : Nat
  railGood : Bool
deriving DecidableEq, Repr

inductive PowerState where
  | init | run | doze | sleep | waking
deriving DecidableEq, Repr

/-- The Power Controller (R162), RESET_N's level (R161), the geometry sweep (R68) and the wait after PART_RESET
(R14, R180). The ports' consents stand with the ports. -/
structure PowerUnit where
  state : PowerState
  dozeTimer : Timer
  dozeDelay : Nat
  resetN : Bool
  geometrySweep : Bool
  resetWait : Bool
deriving DecidableEq, Repr

/-! ## The state -/

/-- The state of the part, and the queue of the commands that are waiting, first in, first out (Log 1). -/
structure State where
  width : Nat
  height : Nat
  image : Store Level
  pixels : Store PixelRecord
  portA : PortState
  portB : PortState
  lastGrant : Requester
  table : TableUnit
  temp : TempUnit
  queue : List Request
  zones : Vector (Option Zone) 4
  zoneDuration : Nat
  lanes : Vector Lane 15
  surveyList : List LaneId
  survey : Option Survey
  residueLimit : Nat
  wearLimit : Nat
  armingList : List LaneId
  retireList : List LaneId
  retire : Option RetireWalk
  scan : Scanner
  supply : Supply
  power : PowerUnit
  pending : List Instr
deriving DecidableEq, Repr

/-- The default enable set: DONE, SUPPLY_FAULT and HALTED, bits 0, 5 and 6 (R173). -/
def defaultEnables : BitVec 12 := 0x061

/-- A context at its defaults, its window the whole W × H area under ROT0 (R55, R69). -/
def PortContext.initial (w h : Nat) : PortContext :=
  { orientation := .rot0, mirror := false, window := ⟨0, 0, w - 1, h - 1⟩, cursor := some (0, 0), format := .p4 }

/-- A port after power-on reset, its select as given (R69, R170 to R175). -/
def PortState.initial (t : Transaction) : PortState :=
  { ctx := PortContext.initial Config.defaultWidth Config.defaultHeight, stream := [], result := .ok,
    response := [], flags := 0, enables := defaultEnables, done := [], consent := false, txn := t, held := [],
    dataOut := [], outCount := 0, outMark := 0 }

/-- The state after power-on reset (R161 and the reset table of every chapter), with RESET_N and RAIL_GOOD at the
levels given, the selects as given and the queue as given. It holds the part in INIT: the init sweep runs when
RESET_N is high. -/
def State.powerOn (resetN railGood : Bool) (ta tb : Transaction) (pending : List Instr) : State :=
  { width := Config.defaultWidth, height := Config.defaultHeight, image := [], pixels := [],
    portA := PortState.initial ta, portB := PortState.initial tb, lastGrant := .survey,
    table := { phase := .empty, memory := [], received := 0, table := none },
    temp := { freshness := .absent, effective := none, band := none, staleTimer := none,
              hysteresis := Config.defaultHysteresis, staleDuration := Config.defaultStale },
    queue := [], zones := Vector.replicate 4 none, zoneDuration := Config.defaultZone,
    lanes := Vector.replicate 15 Lane.rest, surveyList := [], survey := none,
    residueLimit := Config.defaultResidueLimit, wearLimit := Config.defaultWearLimit,
    armingList := [], retireList := [], retire := none,
    scan := { scanning := false, band := none, period := none, row := none, walkRow := 0, walkCol := 0,
              counter := 0, markRow := 0, pendingMark := none, markPulses := 0 },
    supply := { state := .off, riseTimer := none, parkTimer := none, fallTimer := none, recovery := false,
                cause := .none, windDown := false, riseDuration := Config.defaultRise,
                parkDuration := Config.defaultPark, fallDuration := Config.defaultFall, railGood := railGood },
    power := { state := .init, dozeTimer := none, dozeDelay := Config.defaultDoze, resetN := resetN,
               geometrySweep := false, resetWait := false },
    pending := pending }

/-- The machine right after reset: power applied with RESET_N high, held in INIT while the init sweep runs, both
selects high, RAIL_GOOD negated, no command waiting (R161, Log 12, Log 17). -/
def State.reset : State := State.powerOn true false .closed .closed []

/-! ## Setters: one per field, and per port, lane and zone -/

def State.withGeometry (s : State) (w h : Nat) : State := { s with width := w, height := h }
def State.withImage (s : State) (v : Store Level) : State := { s with image := v }
def State.withPixels (s : State) (v : Store PixelRecord) : State := { s with pixels := v }
def State.withLastGrant (s : State) (v : Requester) : State := { s with lastGrant := v }
def State.withTable (s : State) (v : TableUnit) : State := { s with table := v }
def State.withTemp (s : State) (v : TempUnit) : State := { s with temp := v }
def State.withQueue (s : State) (v : List Request) : State := { s with queue := v }
def State.withZones (s : State) (v : Vector (Option Zone) 4) : State := { s with zones := v }
def State.withZoneDuration (s : State) (v : Nat) : State := { s with zoneDuration := v }
def State.withLanes (s : State) (v : Vector Lane 15) : State := { s with lanes := v }
def State.withSurveyList (s : State) (v : List LaneId) : State := { s with surveyList := v }
def State.withSurvey (s : State) (v : Option Survey) : State := { s with survey := v }
def State.withLimits (s : State) (r w : Nat) : State := { s with residueLimit := r, wearLimit := w }
def State.withArmingList (s : State) (v : List LaneId) : State := { s with armingList := v }
def State.withRetireList (s : State) (v : List LaneId) : State := { s with retireList := v }
def State.withRetire (s : State) (v : Option RetireWalk) : State := { s with retire := v }
def State.withScan (s : State) (v : Scanner) : State := { s with scan := v }
def State.withSupply (s : State) (v : Supply) : State := { s with supply := v }
def State.withPower (s : State) (v : PowerUnit) : State := { s with power := v }
def State.withPending (s : State) (v : List Instr) : State := { s with pending := v }

/-- One port's state. -/
def State.port (s : State) : Port → PortState
  | .a => s.portA
  | .b => s.portB

/-- Replace one port's state. -/
def State.setPort (s : State) (p : Port) (v : PortState) : State :=
  match p with
  | .a => { s with portA := v }
  | .b => { s with portB := v }

/-- One lane's record. -/
def State.lane (s : State) (l : LaneId) : Lane := s.lanes[l.val]

/-- Replace one lane's record. -/
def State.setLane (s : State) (l : LaneId) (v : Lane) : State := s.withLanes (s.lanes.set l.val v)

/-- One zone, none while it is free. -/
def State.zone (s : State) (z : Fin 4) : Option Zone := s.zones[z.val]

/-- Replace one zone. -/
def State.setZone (s : State) (z : Fin 4) (v : Option Zone) : State := s.withZones (s.zones.set z.val v)

end Sys2Proof.Machine
end

