-- ==== Sys2Proof/Machine/Operands.lean ====
section
/-! DEFINITION. Operand forms: byte order and the codes of enumerated values (R181 to R183), clamping, the walk over a
rectangle in panel order, the mapping from port to panel coordinates (R56), pixel packing (R62, R184) and levels
(R99).
-/

namespace Sys2Proof.Machine

/-! ## Bytes, most significant first (R181) -/

/-- Two bytes as a number. -/
def word16 (a b : Byte) : Nat := a.toNat * 256 + b.toNat

/-- `k` bytes that hold `v`, most significant first. -/
def bytesOf : Nat → Nat → List Byte
  | 0, _ => []
  | k + 1, v => BitVec.ofNat 8 (v / 256 ^ k) :: bytesOf k v

/-- One byte. -/
def byteOf (v : Nat) : Byte := BitVec.ofNat 8 v

/-- A signed byte, two's complement. -/
def signedByte (v : Int) : Byte := BitVec.ofInt 8 v

/-- A flag byte: 1 for yes, 0 for no. -/
def flagByte (b : Bool) : Byte := if b then 1 else 0

/-- `k` bytes of all ones, a field that is not applicable (R181, Log 19). -/
def notApplicable (k : Nat) : List Byte := List.replicate k 0xFF

/-- A field of `k` bytes that may be not applicable. -/
def optionBytes (k : Nat) : Option Nat → List Byte
  | some v => bytesOf k v
  | none => notApplicable k

/-- A request's flag byte; a value other than 0 and 1 names nothing (R181). -/
def parseFlag (b : Byte) : Option Bool :=
  if b = 0 then some false else if b = 1 then some true else none

/-- The codes of the results (R183). -/
def Result.code : Result → Byte
  | .ok => 0x00 | .clamped => 0x01 | .overrun => 0x02 | .lostData => 0x03 | .woke => 0x04
  | .badFrame => 0x10 | .badParam => 0x11 | .duplicateTag => 0x12 | .queueFull => 0x13 | .halted => 0x14
  | .unknownTag => 0x15 | .tooLate => 0x16 | .notOwner => 0x17 | .inUse => 0x18 | .loadInProgress => 0x19
  | .notLoading => 0x1A | .tooLarge => 0x1B | .aborted => 0x1C
  | .badHeader => 0x20 | .sizeMismatch => 0x21 | .badBands => 0x22 | .badModeRecord => 0x23 | .badRecipe => 0x24
  | .badMap => 0x25 | .unknownRowEmpty => 0x26

/-- Codes from 10h upward are refusals (R170). -/
def Result.isRefusal (r : Result) : Bool := 0x10 ≤ r.code.toNat

/-- The result of a command that carries values: CLAMPED when one was clamped (R177). -/
def clampResult (changed : Bool) : Result := if changed then .clamped else .ok

/-- Clamp to lo…hi (R1). -/
def clampNat (lo hi v : Nat) : Nat := if v < lo then lo else if hi < v then hi else v

/-- Clamp to lo…hi (R1). -/
def clampInt (lo hi v : Int) : Int := if v < lo then lo else if hi < v then hi else v

/-- The other port. -/
def otherPort : Port → Port
  | .a => .b
  | .b => .a

/-- 0 Port A, 1 Port B (R185). -/
def portCode : Port → Byte
  | .a => 0
  | .b => 1

/-! ## Rectangles -/

/-- The two rectangles share a pixel (R1). -/
def Rect.meets (r q : Rect) : Bool :=
  decide (r.x0 ≤ q.x1) && decide (q.x0 ≤ r.x1) && decide (r.y0 ≤ q.y1) && decide (q.y0 ≤ r.y1)

/-- The rectangle holds the position. -/
def Rect.has (r : Rect) (p : Pos) : Bool :=
  decide (r.x0 ≤ p.1) && decide (p.1 ≤ r.x1) && decide (r.y0 ≤ p.2) && decide (p.2 ≤ r.y1)

/-- The rectangle's top-left pixel (R1). -/
def Rect.origin (r : Rect) : Pos := (r.x0, r.y0)

/-- The next position of a walk row by row, each row left to right; none after the last (R60, R62, R98, R129). -/
def Rect.nextPos (r : Rect) (p : Pos) : Option Pos :=
  if p.1 < r.x1 then some (p.1 + 1, p.2) else if p.2 < r.y1 then some (r.x0, p.2 + 1) else none

/-! ## Port coordinates (R55, R56) -/

/-- Width of the port area under an orientation. -/
def portWidth (o : Orientation) (w h : Nat) : Nat :=
  match o with
  | .rot0 | .rot180 => w
  | .rot90 | .rot270 => h

/-- Height of the port area under an orientation. -/
def portHeight (o : Orientation) (w h : Nat) : Nat :=
  match o with
  | .rot0 | .rot180 => h
  | .rot90 | .rot270 => w

/-- The whole port area. -/
def portArea (o : Orientation) (w h : Nat) : Rect := ⟨0, 0, portWidth o w h - 1, portHeight o w h - 1⟩

/-- The panel position of a port position: mirror first, then the orientation (R56). -/
def toPanel (c : PortContext) (w h : Nat) (p : Pos) : Pos :=
  let x := if c.mirror then portWidth c.orientation w h - 1 - p.1 else p.1
  let y := p.2
  match c.orientation with
  | .rot0 => (x, y)
  | .rot90 => (w - 1 - y, x)
  | .rot180 => (w - 1 - x, h - 1 - y)
  | .rot270 => (y, h - 1 - x)

/-- The panel rectangle of a port rectangle: the least and greatest coordinates of its corners' images (R56). -/
def rectToPanel (c : PortContext) (w h : Nat) (r : Rect) : Rect :=
  let a := toPanel c w h (r.x0, r.y0)
  let b := toPanel c w h (r.x1, r.y1)
  ⟨min a.1 b.1, min a.2 b.2, max a.1 b.1, max a.2 b.2⟩

/-- A rectangle sent in port coordinates: four 16-bit values in the order x0, y0, x1, y1. -/
def parseRect (b : List Byte) : Rect :=
  match b with
  | [a0, a1, b0, b1, c0, c1, d0, d1] => ⟨word16 a0 a1, word16 b0 b1, word16 c0 c1, word16 d0 d1⟩
  | _ => ⟨0, 0, 0, 0⟩

/-- The order of a rectangle's coordinates as sent (R57, R71, R87). -/
def Rect.ordered (r : Rect) : Bool := decide (r.x0 ≤ r.x1) && decide (r.y0 ≤ r.y1)

/-- Clamp a rectangle to the port area (R57). -/
def clampToArea (c : PortContext) (w h : Nat) (r : Rect) : Rect :=
  let mx := portWidth c.orientation w h - 1
  let my := portHeight c.orientation w h - 1
  ⟨min r.x0 mx, min r.y0 my, min r.x1 mx, min r.y1 my⟩

/-! ## Levels and pixel packing -/

/-- A level from a number, of which the low four bits count. -/
def levelOf (n : Nat) : Level := Fin.ofNat 16 n

/-- Pixels that one byte carries in a format (R61, R184). -/
def PixelFormat.perByte : PixelFormat → Nat
  | .p1 => 8
  | .p2 => 4
  | .p4 => 2

/-- The levels of a pixel data byte, first pixel first (R62, R184). -/
def unpackByte (f : PixelFormat) (b : Byte) : List Level :=
  let v := b.toNat
  match f with
  | .p1 => [7, 6, 5, 4, 3, 2, 1, 0].map fun i => if v / 2 ^ i % 2 = 1 then levelOf 15 else levelOf 0
  | .p2 => [6, 4, 2, 0].map fun i => levelOf (v / 2 ^ i % 4 * 5)
  | .p4 => [levelOf (v / 16), levelOf (v % 16)]

/-- A readback byte: two levels, the first in the four most significant bits; an odd last one alone (R66). -/
def packLevels : List Level → Byte
  | [] => 0
  | [a] => byteOf (a.val * 16)
  | a :: b :: _ => byteOf (a.val * 16 + b.val)

/-- How many levels a level set has (R18). -/
def LevelSet.count : LevelSet → Nat
  | .two => 2
  | .four => 4
  | .sixteen => 16

/-- The candidate target of a wanted level (R99). -/
def quantize (s : LevelSet) (v : Level) : Level :=
  match s with
  | .sixteen => v
  | .four => levelOf (v.val / 4 * 5)
  | .two => if 8 ≤ v.val then levelOf 15 else levelOf 0

/-- The place of a level within a level set (R20). -/
def LevelSet.indexOf (s : LevelSet) (t : Level) : Nat :=
  match s with
  | .sixteen => t.val
  | .four => t.val / 5
  | .two => t.val / 15

/-- The level belongs to the level set (R18). -/
def LevelSet.holds (s : LevelSet) (t : Level) : Bool :=
  match s with
  | .sixteen => true
  | .four => decide (t.val % 5 = 0)
  | .two => decide (t.val % 15 = 0)

/-- A level field of a response; UNKNOWN reads 10h (R181). -/
def levelByte : Option Level → Byte
  | some v => byteOf v.val
  | none => 0x10

/-- A lane-number field of a response; NONE reads FFh (R181). -/
def laneByte : Option LaneId → Byte
  | some l => byteOf (l.val + 1)
  | none => 0xFF

/-- A band field of a response; NONE reads FFh (R181). -/
def bandByte : Option Nat → Byte
  | some b => byteOf b
  | none => 0xFF

end Sys2Proof.Machine
end

