-- ==== Sys2Proof/Machine/Table.lean ====
section
/-! DEFINITION. The Waveform Table: recipes and lookups (R19 to R23), and the validation of an image in its nine steps
(R30 to R34, R186).
-/

namespace Sys2Proof.Machine

/-! ## Recipes and lookups -/

/-- The drive code of frame `k` (R19): the segment whose running total first exceeds `k`, HOLD beyond the length. -/
def segmentAt : List (Drive × Nat) → Nat → Drive
  | [], _ => .hold
  | (d, n) :: rest, k => if k < n then d else segmentAt rest (k - n)

/-- The sum of the segments' frame counts (R19). -/
def segmentsLength (segs : List (Drive × Nat)) : Nat := (segs.map Prod.snd).sum

/-- What a frame of a drive code adds to the residue (R8). -/
def Drive.sign : Drive → Int
  | .hold => 0
  | .pos => 1
  | .neg => -1

/-- POS frames less NEG frames (R19). -/
def segmentsNet (segs : List (Drive × Nat)) : Int := (segs.map fun s => s.1.sign * (s.2 : Int)).sum

/-- A recipe with its length and net computed (R19). -/
def Recipe.ofSegments (segs : List (Drive × Nat)) : Recipe :=
  { segments := segs, length := segmentsLength segs, net := segmentsNet segs }

/-- A recipe of no segments: what a lookup of a key that the table does not define answers, which no reachable state
asks (R23, Log 20). -/
def Recipe.empty : Recipe := Recipe.ofSegments []

/-- How many variants a mode's map has (R20). -/
def ModeRecord.variants (m : ModeRecord) : Nat := if m.compensating then 2 else 1

/-- Entries of one row of a mode's map: destinations times variants (R20). -/
def ModeRecord.rowEntries (m : ModeRecord) : Nat := m.levels.count * m.variants

/-- Index map entries of a mode in a table of `bands` bands (R20). -/
def ModeRecord.mapEntries (m : ModeRecord) (bands : Nat) : Nat := bands * 17 * m.rowEntries

/-- Index map entries of the modes in order. -/
def modesEntries (bands : Nat) (ms : List ModeRecord) : Nat := (ms.map fun m => m.mapEntries bands).sum

/-- The row of a shown value: 0 to 15, UNKNOWN last (R20). -/
def rowOf : Option Level → Nat
  | some v => v.val
  | none => 16

/-- The place of a key's variant: P before N, the variant disregarded when the mode is not compensating (R20, R21). -/
def ModeRecord.variantIndex (m : ModeRecord) (v : Variant) : Nat :=
  match m.compensating, v with
  | true, .n => 1
  | _, _ => 0

/-- The place of a key in the index map, in the order of R20. -/
def mapIndex (bands : Nat) (modes : List ModeRecord) (mode : Nat) (m : ModeRecord) (band : Nat)
    (shown : Option Level) (dest : Level) (v : Variant) : Nat :=
  modesEntries bands (modes.take mode)
    + ((band * 17 + rowOf shown) * m.levels.count + m.levels.indexOf dest) * m.variants + m.variantIndex v

/-- The recipe lookup (R21). Of a mode that is not defined it is none; of a band that is not, or of a destination
outside the mode's level set, it is what the index formula falls on, which may be another key's entry (Log 20). -/
def Table.lookup (t : Table) (mode : Nat) (band : Nat) (shown : Option Level) (dest : Level) (v : Variant) :
    Option Recipe := do
  let m ← t.modes[mode]?
  let n ← t.map[mapIndex t.header.bandCount t.modes mode m band shown dest v]?
  t.pool[n]?

/-- The mode number is defined (R16, R23). -/
def Table.defines (t : Table) (mode : Nat) : Bool := decide (mode < t.header.modeCount)

/-- The boundaries L1 to LN−1 (R41). -/
def Table.boundaries (t : Table) : List Int := t.bands.tail.map BandRecord.lower

/-- count(x), the number of boundaries less than or equal to x (R41). -/
def Table.count (t : Table) (x : Int) : Nat := t.boundaries.countP fun l => decide (l ≤ x)

/-- The table is VALID (R24). -/
def State.tableValid (s : State) : Bool := s.table.phase = .valid

/-- The attributes of a mode (R23); of an undefined one, which no reachable state asks, those of a mode that does
nothing (Log 20). -/
def State.modeRecord (s : State) (mode : Nat) : ModeRecord :=
  match s.table.table.bind fun t => t.modes[mode]? with
  | some m => m
  | none => { levels := .sixteen, clearing := false, drivesUnchanged := false, acceptsUnknown := false,
              compensating := false, cost := 0, promote := none, ratio := 256 }

/-- The recipe of a key (R21), with the band that a surveyed lane holds. -/
def State.recipe (s : State) (mode : Nat) (band : Option Nat) (shown : Option Level) (dest : Level) (v : Variant) :
    Recipe :=
  match s.table.table, band with
  | some t, some b => (t.lookup mode b shown dest v).getD Recipe.empty
  | _, _ => Recipe.empty

/-- The frame period of a band (R23). -/
def State.bandPeriod (s : State) (band : Nat) : Option Nat :=
  (s.table.table.bind fun t => t.bands[band]?).map BandRecord.period

/-- The stale band named by the header (R23). -/
def State.staleBand (s : State) : Option Nat := s.table.table.map fun t => t.header.staleBand

/-! ## Validation (R30) -/

/-- Step 1: the header and the bytes after it (R31). -/
def parseHeader : List Byte → Option (Header × List Byte)
  | b0 :: b1 :: b2 :: b3 :: b4 :: b5 :: b6 :: b7 :: b8 :: b9 :: rest =>
    let h : Header :=
      { version := b0.toNat, modeCount := b1.toNat, bandCount := b2.toNat, staleBand := b3.toNat,
        recipeCount := word16 b4 b5, length := word16 b6 b7 * 65536 + word16 b8 b9 }
    if h.version = 1 ∧ (1 ≤ h.modeCount ∧ h.modeCount ≤ 8) ∧ (1 ≤ h.bandCount ∧ h.bandCount ≤ 12)
        ∧ h.staleBand < h.bandCount ∧ (1 ≤ h.recipeCount ∧ h.recipeCount ≤ 1024)
        ∧ (1 ≤ h.length ∧ h.length ≤ Config.tableBytes) then
      some (h, rest)
    else none
  | _ => none

/-- `n` band records and the bytes after them (R17, R186). -/
def parseBands : Nat → List Byte → Option (List BandRecord × List Byte)
  | 0, rest => some ([], rest)
  | n + 1, b0 :: b1 :: b2 :: rest =>
    (parseBands n rest).map fun r => ({ lower := b0.toInt, period := word16 b1 b2 } :: r.1, r.2)
  | _ + 1, _ => none

/-- Strictly ascending, each greater than the one before (R32). -/
def ascending : List Int → Bool
  | a :: b :: rest => decide (a < b) && ascending (b :: rest)
  | _ => true

/-- Step 3 (R32). -/
def bandsInOrder (bands : List BandRecord) : Bool :=
  bands.all (fun b => decide (100 ≤ b.period) && decide (b.period ≤ 1300)) && ascending (bands.tail.map BandRecord.lower)

/-- One mode record, none when an attribute is outside its values (R33, R186). -/
def parseMode (b0 b1 b2 b3 b4 b5 : Byte) : Option ModeRecord :=
  let levels : Option LevelSet :=
    if b0.toNat = 2 then some .two else if b0.toNat = 4 then some .four
    else if b0.toNat = 16 then some .sixteen else none
  levels.bind fun l =>
    if b1.toNat < 16 ∧ b2.toNat ≤ 7 ∧ 1 ≤ word16 b4 b5 ∧ word16 b4 b5 ≤ 256 then
      some { levels := l, clearing := b1.getLsbD 0, drivesUnchanged := b1.getLsbD 1, acceptsUnknown := b1.getLsbD 2,
             compensating := b1.getLsbD 3, cost := b2.toNat,
             promote := if b3 = 0xFF then none else some b3.toNat, ratio := word16 b4 b5 }
    else none

/-- `n` mode records and the bytes after them; none when the image ends early or an attribute is out of range. -/
def parseModes : Nat → List Byte → Option (List ModeRecord × List Byte)
  | 0, rest => some ([], rest)
  | n + 1, b0 :: b1 :: b2 :: b3 :: b4 :: b5 :: rest =>
    (parseMode b0 b1 b2 b3 b4 b5).bind fun m => (parseModes n rest).map fun r => (m :: r.1, r.2)
  | _ + 1, _ => none

/-- The conditions on the promote target of mode `i` (R33). -/
def promoteAllowed (modes : List ModeRecord) (i : Nat) (m : ModeRecord) : Bool :=
  match m.promote with
  | none => true
  | some x =>
    match modes[x]? with
    | none => false
    | some t => decide (x ≠ i) && t.clearing && t.acceptsUnknown && decide (m.levels.count ≤ t.levels.count)

/-- Every mode's promote target is allowed (R33). -/
def promotesAllowed (modes : List ModeRecord) : Bool :=
  (List.range modes.length).all fun i =>
    match modes[i]? with
    | some m => promoteAllowed modes i m
    | none => true

/-- `n` map entries and the bytes after them (R34, R186). -/
def parseMap : Nat → List Byte → Option (List Nat × List Byte)
  | 0, rest => some ([], rest)
  | n + 1, b0 :: b1 :: rest => (parseMap n rest).map fun r => (word16 b0 b1 :: r.1, r.2)
  | _ + 1, _ => none

/-- A segment byte; none when its polarity names none or its frame count is 0 (R34, R186). -/
def parseSegment (b : Byte) : Option (Drive × Nat) :=
  let n := b.toNat % 64
  if n = 0 then none
  else match b.toNat / 64 with
    | 0 => some (.hold, n)
    | 1 => some (.pos, n)
    | 2 => some (.neg, n)
    | _ => none

/-- Step 6: `n` recipes in order, each tested for completeness and then for form (R30, R34). -/
def parsePool : Nat → List Byte → Except Result (List Recipe × List Byte)
  | 0, rest => .ok ([], rest)
  | _ + 1, [] => .error .sizeMismatch
  | n + 1, c :: rest =>
    if rest.length < c.toNat then .error .sizeMismatch
    else if 8 < c.toNat then .error .badRecipe
    else match (rest.take c.toNat).mapM parseSegment with
      | none => .error .badRecipe
      | some segs =>
        if 255 < segmentsLength segs then .error .badRecipe
        else match parsePool n (rest.drop c.toNat) with
          | .error e => .error e
          | .ok r => .ok (Recipe.ofSegments segs :: r.1, r.2)

/-- The levels of a level set, ascending (R18). -/
def LevelSet.levels : LevelSet → List Level
  | .two => [0, 15]
  | .four => [0, 5, 10, 15]
  | .sixteen => [0, 1, 2, 3, 4, 5, 6, 7, 8, 9, 10, 11, 12, 13, 14, 15]

/-- Step 9: every recipe named on an UNKNOWN row is at least one frame long (R34). -/
def unknownRowsDriven (t : Table) : Bool :=
  (List.range t.modes.length).all fun mode =>
    match t.modes[mode]? with
    | none => true
    | some m =>
      (List.range t.header.bandCount).all fun band =>
        m.levels.levels.all fun dest =>
          [Variant.p, Variant.n].all fun v =>
            match t.lookup mode band none dest v with
            | some r => decide (1 ≤ r.length)
            | none => true

/-- The nine steps, in order; the first that fails gives its code (R30). -/
def validateImage (img : List Byte) : Except Result Table :=
  match parseHeader img with
  | none => .error .badHeader
  | some (h, r1) =>
    if h.length ≠ img.length then .error .sizeMismatch
    else match parseBands h.bandCount r1 with
      | none => .error .badBands
      | some (bands, r2) =>
        if bandsInOrder bands = false then .error .badBands
        else match parseModes h.modeCount r2 with
          | none => .error .badModeRecord
          | some (modes, r3) =>
            if promotesAllowed modes = false then .error .badModeRecord
            else match parseMap (modesEntries h.bandCount modes) r3 with
              | none => .error .sizeMismatch
              | some (map, r4) =>
                match parsePool h.recipeCount r4 with
                | .error e => .error e
                | .ok (pool, r5) =>
                  let t : Table := { header := h, bands := bands, modes := modes, map := map, pool := pool }
                  if r5 ≠ [] then .error .sizeMismatch
                  else if map.all (fun n => decide (n < h.recipeCount)) = false then .error .badMap
                  else if unknownRowsDriven t = false then .error .unknownRowEmpty
                  else .ok t

end Sys2Proof.Machine
end

