-- ==== Sys2Proof/Machine/Ops.lean ====
section
/-! DEFINITION. Named operations over the stores, the ports, the arbiter, the lanes and their lists: each is said once
here, and every meaning calls it.
-/

namespace Sys2Proof.Machine

/-! ## Sparse stores -/

/-- Read a cell; an unlisted address reads as `d`. -/
def Store.read {α : Type} (d : α) : Store α → Nat → α
  | [], _ => d
  | (k, v) :: rest, a => if a = k then v else Store.read d rest a

/-- Write a cell, keeping addresses rising and listing no cell equal to `d`. -/
def Store.write {α : Type} [DecidableEq α] (d : α) : Store α → Nat → α → Store α
  | [], a, v => if v = d then [] else [(a, v)]
  | (k, w) :: rest, a, v =>
    if a < k then (if v = d then (k, w) :: rest else (a, v) :: (k, w) :: rest)
    else if a = k then (if v = d then rest else (a, v) :: rest)
    else (k, w) :: Store.write d rest a v

/-- Addresses strictly rising above a bound, and no cell equal to `d`. -/
def Store.wfFrom {α : Type} [DecidableEq α] (d : α) : Option Nat → Store α → Bool
  | _, [] => true
  | b, (k, v) :: rest =>
    (match b with | none => true | some j => decide (j < k)) && decide (v ≠ d) && Store.wfFrom d (some k) rest

/-- The canonical form of a store. -/
def Store.wf {α : Type} [DecidableEq α] (d : α) (m : Store α) : Bool := Store.wfFrom d none m

/-- What an unlisted position of the Image Store reads: the sweeps write level 15 (R68). -/
def sweptLevel : Level := 15

/-- The address of a panel position: its column within its row of the largest geometry (R2, R52). -/
def address (p : Pos) : Nat := p.2 * Config.maxWidth + p.1

/-- The wanted level at a panel position (R52). -/
def State.level (s : State) (p : Pos) : Level := Store.read sweptLevel s.image (address p)

/-- Write a wanted level (R52). -/
def State.setLevel (s : State) (p : Pos) (v : Level) : State := s.withImage (Store.write sweptLevel s.image (address p) v)

/-- The pixel record at a panel position (R2). -/
def State.pixel (s : State) (p : Pos) : PixelRecord := Store.read PixelRecord.swept s.pixels (address p)

/-- Write a pixel record (R2). -/
def State.setPixel (s : State) (p : Pos) (r : PixelRecord) : State :=
  s.withPixels (Store.write PixelRecord.swept s.pixels (address p) r)

/-- The canonical form of both stores. -/
def Memory.wf (s : State) : Bool := Store.wf sweptLevel s.image && Store.wf PixelRecord.swept s.pixels

/-! ## Ports -/

/-- Change one port's state. -/
def State.mapPort (s : State) (p : Port) (f : PortState → PortState) : State := s.setPort p (f (s.port p))

/-- Change both ports' states. -/
def State.mapPorts (s : State) (f : PortState → PortState) : State := (s.mapPort .a f).mapPort .b f

/-- The select of the port is high (R162). -/
def State.selectHigh (s : State) (p : Port) : Bool := (s.port p).txn = .closed

/-- Add an entry at the tail of a port's write stream (R59). -/
def State.pushEntry (s : State) (p : Port) (e : Entry) : State :=
  s.mapPort p fun q => { q with stream := q.stream ++ [e] }

/-- The request of a submit entry. -/
def Entry.request : Entry → Option Request
  | .submit q => some q
  | _ => none

/-- The requests in a port's write stream, oldest first (R59). -/
def State.streamRequests (s : State) (p : Port) : List Request := (s.port p).stream.filterMap Entry.request

/-! ## The Image Store arbiter (R53) -/

/-- A port's requester has an access to make: an entry that writes, or a level of a readback whose stream has
drained (R60, R66; Log 9). -/
def State.portWaits (s : State) (p : Port) : Bool :=
  match (s.port p).stream, (s.port p).txn with
  | .pixel _ _ :: _, _ => true
  | .fill _ _ _ :: _, _ => true
  | [], .reading r => r.pos.isSome && decide (r.granted.length < 2)
  | _, _ => false

/-- The requester is waiting (R53, Log 9). -/
def State.waits (s : State) : Requester → Bool
  | .portA => s.portWaits .a
  | .portB => s.portWaits .b
  | .survey =>
    match s.survey with
    | some w => w.pos.isSome && w.read.isNone
    | none => false

/-- The rotation after a grant: Port A, Port B, Survey Engine, Port A (R53). -/
def grantOrder : Requester → List Requester
  | .portA => [.portB, .survey, .portA]
  | .portB => [.survey, .portA, .portB]
  | .survey => [.portA, .portB, .survey]

/-- The requester that the next grant goes to, none when no one waits (R53). -/
def State.turn (s : State) : Option Requester := (grantOrder s.lastGrant).find? s.waits

/-- The requester of a port. -/
def requesterOf : Port → Requester
  | .a => .portA
  | .b => .portB

/-! ## Lanes and zones -/

/-- The fifteen lanes in number order (R94). -/
def laneIds : List LaneId := [0, 1, 2, 3, 4, 5, 6, 7, 8, 9, 10, 11, 12, 13, 14]

/-- The four zones in number order (R86). -/
def zoneIds : List (Fin 4) := [0, 1, 2, 3]

/-- The lanes in a state, in number order. -/
def State.lanesIn (s : State) (st : LaneState) : List LaneId := laneIds.filter fun l => (s.lane l).state = st

/-- Every lane is FREE. -/
def State.allFree (s : State) : Bool := laneIds.all fun l => (s.lane l).state = .free

/-- No zone is active. -/
def State.noZone (s : State) : Bool := zoneIds.all fun z => (s.zone z).isNone

/-- Change one lane's record. -/
def State.mapLane (s : State) (l : LaneId) (f : Lane → Lane) : State := s.setLane l (f (s.lane l))

/-- A lane's record at its allocation to a request (R95). -/
def Lane.allocated (q : Request) : Lane :=
  { Lane.rest with
    state := .pending, owner := q.port, tag := q.tag, requestedMode := q.mode, finalMode := q.mode,
    policy := q.policy, rect := q.rect }

/-- The lane joins the tail of the retire list, RETIRING with a kind and an outcome (R128). -/
def State.joinRetire (kind : RetireKind) (outcome : UpdateOutcome) (s : State) (l : LaneId) : State :=
  (s.mapLane l fun r => { r with state := .retiring, kind := some kind, outcome := some outcome }).withRetireList
    (s.retireList ++ [l])

/-- The Retire Engine starts the walk of the head of its list when it is idle and the list is not empty (R128). -/
def State.startRetire (s : State) : State :=
  match s.retire, s.retireList with
  | none, l :: _ =>
    let m := s.modeRecord (s.lane l).finalMode
    s.withRetire (some { lane := l, pos := some (s.lane l).rect.origin, clearing := m.clearing, cost := m.cost })
  | _, _ => s

/-! ## The Scheduler (R77 to R79) -/

/-- A HOLD request meets no lane in use and no active zone of the other port (R78, conditions 5 and 6). -/
def State.unobstructed (s : State) (q : Request) : Bool :=
  (laneIds.all fun l => decide ((s.lane l).state = .free) || !q.rect.meets (s.lane l).rect) &&
  zoneIds.all fun z =>
    match s.zone z with
    | some zone => decide (zone.owner = q.port) || !q.rect.meets zone.rect
    | none => true

/-- The request, with the older ones of the queue, is eligible (R78). -/
def State.eligible (s : State) (older : List Request) (q : Request) : Bool :=
  s.tableValid && decide (s.supply.state ≠ .halted) && (laneIds.any fun l => decide ((s.lane l).state = .free)) &&
  (older.all fun o => !q.rect.meets o.rect) && (decide (q.policy = .skip) || s.unobstructed q)

/-- The request at a place of the queue is eligible. -/
def State.eligibleAt (s : State) (i : Nat) : Bool :=
  match s.queue[i]? with
  | some q => s.eligible (s.queue.take i) q
  | none => false

/-- The request at a place of the queue is urgent. -/
def State.urgentAt (s : State) (i : Nat) : Bool :=
  match s.queue[i]? with
  | some q => q.urgent
  | none => false

/-- The place of the request the Scheduler chooses: urgent before ordinary, then oldest (R79). -/
def State.choose (s : State) : Option Nat :=
  let places := List.range s.queue.length
  match places.find? fun i => s.eligibleAt i && s.urgentAt i with
  | some i => some i
  | none => places.find? s.eligibleAt

/-- The lowest-numbered FREE lane (R79). -/
def State.freeLane (s : State) : Option LaneId := laneIds.find? fun l => decide ((s.lane l).state = .free)

/-- The one event of allocation (R79, R95, R96). -/
def State.allocate (s : State) (i : Nat) (q : Request) (l : LaneId) : State :=
  ((s.withQueue (s.queue.eraseIdx i)).setLane l (Lane.allocated q)).withSurveyList (s.surveyList ++ [l])

/-- One allocation, none when no request is eligible or no lane is FREE (R77). -/
def State.allocateNext (s : State) : Option State :=
  s.choose.bind fun i => s.queue[i]?.bind fun q => s.freeLane.map fun l => s.allocate i q l

/-- At most `n` allocations, one after the other. -/
def reconsiderUpTo : Nat → State → State
  | 0, s => s
  | n + 1, s =>
    match s.allocateNext with
    | some t => reconsiderUpTo n t
    | none => s

/-- A reconsideration (R77). Each allocation takes a lane, so fifteen of them leave none FREE. -/
def State.reconsider (s : State) : State := reconsiderUpTo 15 s

/-! ## Supply phases shared by several events -/

/-- The supply enters ON and parked (R150, R151). -/
def Supply.enterOn (u : Supply) : Supply :=
  { u with state := .on, riseTimer := none, parkTimer := some u.parkDuration }

/-- The supply enters RISING; ON in the same event when RAIL_GOOD is already asserted (R150). -/
def Supply.enterRising (u : Supply) : Supply :=
  let v := { u with state := .rising, riseTimer := some u.riseDuration }
  if v.railGood then v.enterOn else v

/-- The supply enters FALLING (R151, R160). -/
def Supply.enterFalling (u : Supply) : Supply :=
  { u with state := .falling, riseTimer := none, parkTimer := none, fallTimer := some u.fallDuration }

/-- Demand, the arming list not empty, moves the supply from OFF to RISING (R148, R150). -/
def State.raiseOnDemand (s : State) : State :=
  if s.supply.state = .off ∧ s.armingList ≠ [] then s.withSupply s.supply.enterRising else s

end Sys2Proof.Machine
end

