-- ==== Sys2Proof/Machine/Flags.lean ====
section
/-! DEFINITION. Event flags and ATTN (R172, R173), port results (R170), done queues (R175), and the outputs that are
functions of the state: READY (R61), RAIL_EN (R149), the panel lines (R146) and the drive codes (R139).
-/

namespace Sys2Proof.Machine

/-- The flag's bit (R185). -/
def Flag.bit : Flag → Nat
  | .done => 0 | .doneLost => 1 | .refused => 2 | .overrun => 3 | .lostData => 4 | .supplyFault => 5
  | .halted => 6 | .tempStale => 7 | .zoneLapsed => 8 | .tableChanged => 9 | .woke => 10 | .partReset => 11

/-- The flag is set in a flag word. -/
def flagSet (w : BitVec 12) (f : Flag) : Bool := w.getLsbD f.bit

/-- Set a flag on a port; one already set stays set (R172). -/
def State.raise (s : State) (p : Port) (f : Flag) : State :=
  s.mapPort p fun q => { q with flags := q.flags ||| BitVec.twoPow 12 f.bit }

/-- Set a flag on both ports. -/
def State.raiseBoth (s : State) (f : Flag) : State := (s.raise .a f).raise .b f

/-- ATTN is low: a flag is both set and enabled (R173). It is high in INIT, where every flag is clear. -/
def State.attnLow (s : State) (p : Port) : Bool := (s.port p).flags &&& (s.port p).enables != 0

/-- Set the port's result; a refusal code raises REFUSED (R170). -/
def State.setResult (s : State) (p : Port) (r : Result) : State :=
  let t := s.mapPort p fun q => { q with result := r }
  if r.isRefusal then t.raise p .refused else t

/-- A done record joins the tail of the port's done queue with DONE, or is discarded with DONE_LOST (R175). -/
def State.appendDone (s : State) (p : Port) (r : DoneRecord) : State :=
  if (s.port p).done.length < Config.doneCapacity then
    (s.mapPort p fun q => { q with done := q.done ++ [r] }).raise p .done
  else s.raise p .doneLost

/-- The done record of a request that ends without a lane, or in a PENDING lane (R83, R110). -/
def DoneRecord.unsurveyed (tag mode : Nat) (o : UpdateOutcome) : DoneRecord :=
  { tag := tag, outcome := o, requestedMode := mode, finalMode := mode, promoted := false, stale := false,
    figures := none }

/-- The done record made from a surveyed lane (R109, R134). -/
def Lane.doneRecord (r : Lane) (o : UpdateOutcome) : DoneRecord :=
  { tag := r.tag, outcome := o, requestedMode := r.requestedMode, finalMode := r.finalMode, promoted := r.promoted,
    stale := r.stale,
    figures := some { band := r.band, framesDriven := r.frameIndex, claimed := r.claimed,
                      busySkipped := r.busySkipped, zoneSkipped := r.zoneSkipped,
                      unknownSkipped := r.unknownSkipped, saturated := r.saturated } }

/-- Give the lane's owner its record when its report field is yes (R94, R133). -/
def State.reportLane (s : State) (l : LaneId) (d : DoneRecord) : State :=
  if (s.lane l).report then s.appendDone (s.lane l).owner d else s

/-- A PENDING lane returns to FREE with an outcome: its record, its rest values, its place in the survey list
(R110, R113, R114). -/
def State.endPending (o : UpdateOutcome) (s : State) (l : LaneId) : State :=
  let r := s.lane l
  let t := s.reportLane l (DoneRecord.unsurveyed r.tag r.requestedMode o)
  (t.setLane l Lane.rest).withSurveyList (t.surveyList.filter fun k => decide (k ≠ l))

/-! ## READY (R61) -/

/-- The port's READY while the part is in RUN or DOZE and nothing else holds it low. -/
def PortState.ready (q : PortState) : Bool :=
  match q.txn with
  | .writing _ _ =>
    q.ctx.cursor.isNone || decide (q.stream.length + q.ctx.format.perByte ≤ Config.streamCapacity)
  | .reading r => q.stream.isEmpty && (!r.dummySent || r.pos.isNone || decide (2 ≤ r.granted.length))
  | _ => decide (q.stream.length < Config.streamCapacity)

/-- A validation holds the owner port's READY low (R27). -/
def State.validatingFor (s : State) (p : Port) : Bool := s.table.phase = .loading p true

/-- READY of a port is high (R61; R27, R68, R161, R166, R180). In SLEEP it stays high (R165). -/
def State.ready (s : State) (p : Port) : Bool :=
  decide (s.power.state ≠ .init) && decide (s.power.state ≠ .waking) && !s.power.geometrySweep &&
  !s.power.resetWait && !s.validatingFor p && (s.port p).ready

/-! ## Panel side -/

/-- RAIL_EN is asserted: only in RISING and ON (R149). -/
def State.railEn (s : State) : Bool := s.supply.state = .rising || s.supply.state = .on

/-- What the gate and source driver lines carry (R146). -/
inductive PanelLines where
  | highImpedance
  | ground
  | holdAll
  | row (y : Nat)
deriving DecidableEq, Repr

/-- The state of the panel lines (R146, R161). -/
def State.panelLines (s : State) : PanelLines :=
  match s.supply.state with
  | .off => .highImpedance
  | .on => if s.scan.scanning then .row (s.scan.row.getD 0) else .holdAll
  | _ => .ground

/-- The drive code that the Frame Scanner chooses for a record (R139). -/
def State.driveCode (s : State) (r : PixelRecord) : Drive :=
  match r.lane with
  | none => .hold
  | some l =>
    let lane := s.lane l
    if lane.state = .running then
      segmentAt (s.recipe lane.finalMode lane.band r.shown r.target r.variant).segments lane.frameIndex
    else .hold

/-- The code that the source line of column `x` presents while its row is taken (R138, R139). -/
def State.sourceCode (s : State) (x : Nat) : Drive :=
  match s.panelLines with
  | .row y => s.driveCode (s.pixel (x, y))
  | _ => .hold

end Sys2Proof.Machine
end

