-- ==== Sys2Proof/Machine/Link.lean ====
section
/-! DEFINITION. The command link: select edges (R162, R163, R166), how a transaction is judged and ends (R168, R169,
R171), and what follows every event of the part at the Power Controller (R162, R165) and at READY.
-/

namespace Sys2Proof.Machine

/-! ## After every event -/

/-- The quiet conditions (R162). -/
def State.quiet (s : State) : Bool :=
  decide (s.supply.state = .off) && !s.scan.scanning && s.allFree && s.queue.isEmpty &&
  s.portA.stream.isEmpty && s.portB.stream.isEmpty &&
  (match s.table.phase with | .loading _ _ => false | _ => true) &&
  !s.power.geometrySweep && s.selectHigh .a && s.selectHigh .b

/-- Both consents are set and no zone is active (R165). -/
def State.sleepAgreed (s : State) : Bool := s.portA.consent && s.portB.consent && s.noZone

/-- The wait after a PART_RESET ends when every lane is FREE (R14, R180). -/
def State.endResetWait (s : State) : State :=
  if s.power.resetWait && s.allFree then s.withPower { s.power with resetWait := false } else s

/-- A transaction under way has met READY high (R61, Log 5). -/
def State.noteReady (s : State) (p : Port) : State :=
  match (s.port p).txn with
  | .opened false => if s.ready p then s.mapPort p fun q => { q with txn := .opened true } else s
  | _ => s

/-- Enter SLEEP: the doze and stale timers stop with the oscillator (R165). -/
def State.enterSleep (s : State) : State :=
  (s.withPower { s.power with state := .sleep, dozeTimer := none }).withTemp { s.temp with staleTimer := none }

/-- The Power Controller judges the conditions of R162 and R165. At the entry to RUN from INIT or WAKING the doze timer
starts only if the quiet conditions hold, both selects high among them (R162, Log 38). -/
def State.judgePower (s : State) : State :=
  match s.power.state with
  | .run =>
    if s.quiet then
      if s.sleepAgreed then s.enterSleep
      else if s.power.dozeTimer.isNone then s.withPower { s.power with dozeTimer := some s.power.dozeDelay } else s
    else s.withPower { s.power with dozeTimer := none }
  | .doze => if s.quiet && s.sleepAgreed then s.enterSleep else s
  | _ => s

/-- What the same event brings about once its own effect is made: the reset wait ends, READY is noted, and the doze
timer and SLEEP are judged. -/
def State.settle (s : State) : State := (((s.endResetWait.noteReady .a).noteReady .b)).judgePower

/-! ## Select edges -/

/-- The freshness, if FRESH, becomes STALE with TEMP_STALE on both ports (R44, R49). -/
def State.goStale (s : State) : State :=
  if s.temp.freshness = .fresh then
    (s.withTemp { s.temp with freshness := .stale, staleTimer := none }).raiseBoth .tempStale
  else s

/-- The wake (R166). -/
def State.wake (s : State) (p : Port) : State :=
  let t := s.withPower { s.power with state := .waking, dozeTimer := none }
  let t := t.mapPorts fun q => { q with consent := false }
  let t := t.mapPort p fun q => { q with txn := .discarded }
  ((t.setResult p .woke).raise p .woke).goStale

/-- A select that is high falls (R162, R163, R161, R166). -/
def State.selectFalls (s : State) (p : Port) : State :=
  let t := s.mapPort p fun q => { q with dataOut := [], outCount := 0, outMark := 0 }
  match t.power.state with
  | .init => t.mapPort p fun q => { q with txn := .discarded }
  | .sleep => t.wake p
  | _ =>
    let t := t.mapPort p fun q => { q with txn := .opened (t.ready p) }
    t.withPower { t.power with state := if t.power.state = .doze then .run else t.power.state, dozeTimer := none }

/-- The state in which a transaction of the port is under way: when its select is still high, its falling edge is
taken first, as SELECT_FALL takes it (Log 4). -/
def State.opened (s : State) (p : Port) : State :=
  if s.selectHigh p then (s.selectFalls p).settle else s

/-! ## The end of a transaction -/

/-- How many request bytes a command has (R168). -/
inductive Frame where
  | fixed (n : Nat)
  | query (n : Nat)
  | stream
deriving DecidableEq, Repr

/-- The number of request bytes fits the frame (R169). -/
def Frame.fits : Frame → Nat → Bool
  | .fixed n, k => k = n
  | .query n, k => decide (n ≤ k)
  | .stream, _ => true

/-- A response goes out, one byte for each byte taken, zero once it is exhausted (R171). -/
def responseOut (r : List Byte) (n : Nat) : List Byte := (r ++ List.replicate n 0).take n

/-- What has gone out by the rise of a transaction of which `n` bytes were taken. The response bytes not on record yet
went out while READY was high: last if it still is, and else from the mark on, before the zeros clocked since (R61,
R171; Log 6). -/
def State.outAtRise (s : State) (p : Port) (n : Nat) : List Byte :=
  let q := s.port p
  let k := if s.ready p then q.dataOut.length else q.outMark
  q.dataOut.take k ++ (responseOut q.response n).drop q.outCount ++ q.dataOut.drop k

/-- Select rises on a transaction of which `n` bytes were taken: the response has gone out and its buffer is empty,
unless no byte was taken; the consent is cleared (R164, R171). -/
def State.closeTransaction (s : State) (p : Port) (n : Nat) : State :=
  s.mapPort p fun q =>
    { q with txn := .closed, consent := false, response := if n = 0 then q.response else [],
             dataOut := s.outAtRise p n }

/-- Bytes clocked that are not taken, while READY is low or in a transaction that is discarded whole: each carries zero
out (R61, R166). -/
def State.clockZeros (s : State) (p : Port) (n : Nat) : State :=
  s.mapPort p fun q => { q with dataOut := q.dataOut ++ List.replicate n 0 }

/-- A byte is clocked that its row has no use for: in a discarded transaction, or in one whose command is not known yet
while READY is low, it carries zero out and nothing else happens (R61, R166; Logs 6, 39). A transaction that has not met
READY high has its mark moved past it. -/
def State.clockUntaken (s : State) (p : Port) : State :=
  match (s.port p).txn with
  | .discarded => s.clockZeros p 1
  | .opened heard =>
    if s.ready p then s
    else (s.clockZeros p 1).mapPort p fun q => { q with outMark := if heard then q.outMark else q.dataOut.length }
  | _ => s

/-- The rise of a transaction that is discarded whole, `n` bytes of it clocked in the same row (Log 39): select is high
again, nothing else (R161, R166, R69). -/
def State.closeDiscarded (s : State) (p : Port) (n : Nat) : State :=
  (s.clockZeros p n).mapPort p fun q => { q with txn := .closed }

/-- BAD_FRAME (R169); a query then forms a response of its first byte alone (R171). -/
def State.refuseFrame (s : State) (p : Port) (fr : Frame) : State :=
  let t := match fr with
    | .query _ => s.mapPort p fun q => { q with response := [q.result.code] }
    | _ => s
  t.setResult p .badFrame

/-- A transaction that rose is taken when the geometry sweep ends, behind those of its port that rose before it (R61,
R168). -/
def State.hold (s : State) (p : Port) (h : Held) : State := s.mapPort p fun q => { q with held := q.held ++ [h] }

/-- The rise of a transaction of which no byte was taken, `n` of its bytes clocked in the same row with zero out (R61):
refused BAD_FRAME (R169), in the order of the select edges of its port (R168): behind a transaction that is held
(Log 21). -/
def State.refuseUntaken (s : State) (p : Port) (n : Nat) : State :=
  let t := (s.clockZeros p n).closeTransaction p 0
  if t.power.geometrySweep && !(t.port p).held.isEmpty then t.hold p .untaken else t.refuseFrame p .stream

/-- SLEEP, which alone does not clear its port's consent at its rise (R164). -/
def isSleep : Instr → Bool
  | .sleep _ _ => true
  | _ => false

/-- The rise of a command's transaction: the frame is judged first (R169); a good one takes effect, or is held while a
geometry sweep runs (R61), also a TABLE_DATA or a query of which data or fill bytes met READY low (Log 40); a
SLEEP so held keeps the consent already given (R164). `i` is the command itself. -/
def State.transact (s : State) (p : Port) (fr : Frame) (req : List Byte) (i : Instr) (effect : State → State) :
    State :=
  let t := s.opened p
  match (t.port p).txn with
  | .opened true =>
    let u := t.closeTransaction p (req.length + 1)
    if fr.fits req.length = false then u.refuseFrame p fr
    else if u.power.geometrySweep then
      (u.mapPort p fun q => { q with consent := isSleep i && (t.port p).consent }).hold p (.command i)
    else effect u
  | .opened false => t.refuseUntaken p (req.length + 1)
  | .discarded => t.closeDiscarded p (req.length + 1)
  | _ => t

/-! ## Meanings -/

/-- SELECT_FALL (R162, R163, R166). -/
def execSelectFall (p : Port) (s : State) : Host.Outcome State Fault Refusal :=
  .next (if s.selectHigh p then (s.selectFalls p).settle else s)

/-- UNKNOWN_COMMAND (R169): no byte was taken, or the code names no command. -/
def execUnknownCommand (p : Port) (taken : List Byte) (s : State) : Host.Outcome State Fault Refusal :=
  if namesNoCommand taken then
    let t := s.opened p
    .next (match (t.port p).txn with
      | .opened heard =>
        (if heard && !taken.isEmpty then (t.closeTransaction p taken.length).refuseFrame p .stream
          else t.refuseUntaken p taken.length).settle
      | .discarded => (t.closeDiscarded p taken.length).settle
      | _ => t)
  else .next s

/-- DISCARDED_TRANSACTION_RISE (R166, R161, R69): the rise alone; the bytes clocked before it are rows of their own
(Log 39). -/
def execDiscardedTransactionRise (p : Port) (s : State) : Host.Outcome State Fault Refusal :=
  match (s.port p).txn with
  | .discarded => .next (s.closeDiscarded p 0).settle
  | _ => .next s

end Sys2Proof.Machine
end

