-- ==== Sys2Proof/Machine/Context.lean ====
section
/-! DEFINITION. Port contexts and pixels: SET_WINDOW, SET_FORMAT, SET_ORIENTATION, the pixel writes, FILL_WINDOW, the
readback, and the drains of pixels and fills into the Image Store (R52 to R66).
-/

namespace Sys2Proof.Machine

/-- Change a port's context. -/
def State.mapContext (s : State) (p : Port) (f : PortContext → PortContext) : State :=
  s.mapPort p fun q => { q with ctx := f q.ctx }

/-- The panel position of a port position under the port's context (R56). -/
def State.panelPos (s : State) (p : Port) (x : Pos) : Pos := toPanel (s.port p).ctx s.width s.height x

/-! ## Context commands -/

/-- SET_WINDOW's effect (R57). -/
def effectSetWindow (p : Port) (req : List Byte) (s : State) : State :=
  let r := parseRect req
  if r.ordered then
    let c := clampToArea (s.port p).ctx s.width s.height r
    (s.mapContext p fun x => { x with window := c, cursor := some c.origin }).setResult p (clampResult (c ≠ r))
  else s.setResult p .badParam

/-- The format that a byte names (R182). -/
def parseFormat (b : Byte) : Option PixelFormat :=
  if b = 0 then some .p1 else if b = 1 then some .p2 else if b = 2 then some .p4 else none

/-- SET_FORMAT's effect (R58). -/
def effectSetFormat (p : Port) (req : List Byte) (s : State) : State :=
  match req.head?.bind parseFormat with
  | some f => (s.mapContext p fun x => { x with format := f }).setResult p .ok
  | none => s.setResult p .badParam

/-- The orientation that a byte names (R182). -/
def parseOrientation (b : Byte) : Option Orientation :=
  if b = 0 then some .rot0 else if b = 1 then some .rot90 else if b = 2 then some .rot180
  else if b = 3 then some .rot270 else none

/-- SET_ORIENTATION's effect (R58). -/
def effectSetOrientation (p : Port) (req : List Byte) (s : State) : State :=
  match req.head?.bind parseOrientation, req[1]?.bind parseFlag with
  | some o, some m =>
    (s.mapContext p fun x =>
      { x with orientation := o, mirror := m, window := portArea o s.width s.height,
               cursor := some (0, 0) }).setResult p .ok
  | _, _ => s.setResult p .badParam

/-- SET_WINDOW. -/
def execSetWindow (p : Port) (req : List Byte) (s : State) : Host.Outcome State Fault Refusal :=
  .next (s.transact p (.fixed 8) req (.setWindow p req) (effectSetWindow p req)).settle

/-- SET_FORMAT. -/
def execSetFormat (p : Port) (req : List Byte) (s : State) : Host.Outcome State Fault Refusal :=
  .next (s.transact p (.fixed 1) req (.setFormat p req) (effectSetFormat p req)).settle

/-- SET_ORIENTATION. -/
def execSetOrientation (p : Port) (req : List Byte) (s : State) : Host.Outcome State Fault Refusal :=
  .next (s.transact p (.fixed 2) req (.setOrientation p req) (effectSetOrientation p req)).settle

/-! ## Pixel writes -/

/-- The response byte that goes out with a byte taken (R171). -/
def State.sendResponseByte (s : State) (p : Port) : State :=
  s.mapPort p fun q =>
    { q with dataOut := q.dataOut ++ [q.response[q.outCount]?.getD 0], outCount := q.outCount + 1 }

/-- A byte of a command that acts at its rise is taken before the row that names the command: its response byte goes out
now and not at the rise (R171; Log 6). -/
def State.takeAhead (s : State) (p : Port) : State :=
  (s.sendResponseByte p).mapPort p fun q => { q with outMark := q.dataOut.length }

/-- The command byte of a streaming pixel command: taken while READY is high, it gives the transaction its kind
(R62, R63, R66); clocked while READY is low, it carries zero out (R61). -/
def State.takeCode (s : State) (p : Port) (begin : PortState → PortState) : State :=
  let t := s.opened p
  match (t.port p).txn with
  | .opened _ => if t.ready p then ((t.sendResponseByte p).mapPort p begin).settle else t.clockUntaken p
  | _ => t.clockUntaken p

/-- The rise of select on a streaming pixel command whose code was not taken (R169), or whose transaction is
discarded whole. -/
def State.riseWithoutCode (s : State) (p : Port) : State :=
  match (s.port p).txn with
  | .opened _ => s.refuseUntaken p 0
  | .discarded => s.closeDiscarded p 0
  | _ => s

/-- The result of a pixel write at its rise (R62). -/
def writeResult (lost beyond : Bool) : Result := if lost then .lostData else if beyond then .overrun else .ok

/-- Select rises on a streaming command whose code was taken: the response buffer empties, the consent is cleared
(R164, R171). -/
def State.closeStream (s : State) (p : Port) : State :=
  s.mapPort p fun q => { q with txn := .closed, consent := false, response := [] }

/-- The rise of a pixel write (R62); held while a geometry sweep runs when all its bytes were taken (R61, Log 22). -/
def State.endWrite (s : State) (p : Port) : State :=
  match (s.port p).txn with
  | .writing lost beyond =>
    let t := s.closeStream p
    if t.power.geometrySweep && !lost then
      t.hold p (.writeEnd (writeResult lost beyond))
    else t.setResult p (writeResult lost beyond)
  | _ => s.riseWithoutCode p

/-- WRITE_PIXELS (R62): its command byte moves the cursor to the window origin, its rise sets the result. -/
def execWritePixels (p : Port) (ph : Phase) (s : State) : Host.Outcome State Fault Refusal :=
  match ph with
  | .code => .next (s.takeCode p fun q =>
      { q with txn := .writing false false, ctx := { q.ctx with cursor := some q.ctx.window.origin } })
  | .rise => .next (s.endWrite p).settle

/-- WRITE_CONTINUE (R63): a pixel write from the cursor where it was left. -/
def execWriteContinue (p : Port) (ph : Phase) (s : State) : Host.Outcome State Fault Refusal :=
  match ph with
  | .code => .next (s.takeCode p fun q => { q with txn := .writing false false })
  | .rise => .next (s.endWrite p).settle

/-- A pixel past the window's end was ignored (R62). -/
def State.ignorePixel (s : State) (p : Port) : State :=
  (s.mapPort p fun q =>
    { q with txn := match q.txn with | .writing l _ => .writing l true | t => t }).raise p .overrun

/-- One pixel is placed at the cursor, or ignored past end (R62). -/
def State.placePixel (p : Port) (s : State) (v : Level) : State :=
  match (s.port p).ctx.cursor with
  | some c =>
    (s.pushEntry p (.pixel (s.panelPos p c) v)).mapContext p fun x => { x with cursor := x.window.nextPos c }
  | none => s.ignorePixel p

/-- A pixel data byte is taken (R62, R63). -/
def State.takePixelByte (s : State) (p : Port) (b : Byte) : State :=
  (unpackByte (s.port p).ctx.format b).foldl (State.placePixel p) (s.sendResponseByte p)

/-- A pixel data byte is discarded whole (R64); data out carries zero (R61). -/
def State.discardPixelByte (s : State) (p : Port) : State :=
  (s.mapPort p fun q =>
    { q with txn := match q.txn with | .writing _ b => .writing true b | t => t,
             dataOut := q.dataOut ++ [0] }).raise p .lostData

/-- PIXEL_DATA_BYTE (R62, R63): a data byte of a pixel write is clocked; one clocked while READY is low is discarded
(R64). -/
def execPixelDataByte (p : Port) (b : Byte) (s : State) : Host.Outcome State Fault Refusal :=
  match (s.port p).txn with
  | .writing _ _ => .next (if s.ready p then s.takePixelByte p b else s.discardPixelByte p).settle
  | _ => .next (s.clockUntaken p)

/-- PIXEL_BYTE_DISCARDED (R64). -/
def execPixelByteDiscarded (p : Port) (s : State) : Host.Outcome State Fault Refusal :=
  match (s.port p).txn with
  | .writing _ _ => .next (if s.ready p then s else (s.discardPixelByte p).settle)
  | _ => .next (s.clockUntaken p)

/-- FILL_WINDOW's effect (R65). -/
def effectFillWindow (p : Port) (req : List Byte) (s : State) : State :=
  match req with
  | [b] =>
    if b.toNat ≤ 15 then
      let r := rectToPanel (s.port p).ctx s.width s.height (s.port p).ctx.window
      (s.pushEntry p (.fill r (levelOf b.toNat) r.origin)).setResult p .ok
    else s.setResult p .badParam
  | _ => s.setResult p .badParam

/-- FILL_WINDOW. -/
def execFillWindow (p : Port) (req : List Byte) (s : State) : Host.Outcome State Fault Refusal :=
  .next (s.transact p (.fixed 1) req (.fillWindow p req) (effectFillWindow p req)).settle

/-! ## Readback -/

/-- The rise of a READ_PIXELS (R66). -/
def State.endRead (s : State) (p : Port) : State :=
  match (s.port p).txn with
  | .reading r => (s.closeStream p).setResult p (if r.beyond then .overrun else .ok)
  | _ => s.riseWithoutCode p

/-- READ_PIXELS (R66): its command byte begins a readback of the window, its rise ends it. -/
def execReadPixels (p : Port) (ph : Phase) (s : State) : Host.Outcome State Fault Refusal :=
  match ph with
  | .code => .next (s.takeCode p fun q =>
      { q with txn := .reading { pos := some q.ctx.window.origin, granted := [], dummySent := false,
                                 beyond := false } })
  | .rise => .next (s.endRead p).settle

/-- READBACK_LEVEL_READ (R66): one level of the next byte is granted, in its turn, once the stream is empty. -/
def execReadbackLevelRead (p : Port) (s : State) : Host.Outcome State Fault Refusal :=
  match (s.port p).txn, (s.port p).stream with
  | .reading r, [] =>
    match r.pos with
    | some x =>
      if s.turn = some (requesterOf p) ∧ r.granted.length < 2 then
        let v := s.level (s.panelPos p x)
        .next ((s.withLastGrant (requesterOf p)).mapPort p fun q =>
          { q with txn := .reading { r with granted := r.granted ++ [v], pos := q.ctx.window.nextPos x } }).settle
      else .next s
    | none => .next s
  | _, _ => .next s

/-- A readback byte clocked out (R66): the byte, and the readback after it. -/
def Readback.clock (r : Readback) : Byte × Readback :=
  if r.dummySent then
    if r.pos.isNone && r.granted.isEmpty then (0, { r with beyond := true })
    else (packLevels r.granted, { r with granted := [] })
  else (0, { r with dummySent := true })

/-- READBACK_BYTE (R66): a byte is clocked after the command byte; while READY is low it carries zero and the read
does not advance (R61). In a transaction whose command is not known yet it is one byte of that command (Log 6). -/
def execReadbackByte (p : Port) (s : State) : Host.Outcome State Fault Refusal :=
  match (s.port p).txn with
  | .reading r =>
    if s.ready p then
      let t := s.mapPort p fun q => { q with dataOut := q.dataOut ++ [r.clock.1], txn := .reading r.clock.2 }
      .next (if r.dummySent && r.pos.isNone && r.granted.isEmpty then t.raise p .overrun else t).settle
    else .next (s.clockZeros p 1)
  | .opened true => .next (if s.ready p then s.takeAhead p else s.clockUntaken p)
  | _ => .next (s.clockUntaken p)

/-! ## Drains into the Image Store -/

/-- DRAIN_PIXEL_ENTRY (R60): the pixel entry at the head is granted, in its turn, and leaves the stream. -/
def execDrainPixelEntry (p : Port) (s : State) : Host.Outcome State Fault Refusal :=
  match (s.port p).stream with
  | .pixel x v :: rest =>
    if s.turn = some (requesterOf p) then
      .next (((s.setLevel x v).withLastGrant (requesterOf p)).mapPort p fun q => { q with stream := rest }).settle
    else .next s
  | _ => .next s

/-- DRAIN_FILL_PIXEL (R60): the fill at the head writes one pixel per grant and leaves after its last. -/
def execDrainFillPixel (p : Port) (s : State) : Host.Outcome State Fault Refusal :=
  match (s.port p).stream with
  | .fill r v x :: rest =>
    if s.turn = some (requesterOf p) then
      let left := match r.nextPos x with
        | some y => .fill r v y :: rest
        | none => rest
      .next (((s.setLevel x v).withLastGrant (requesterOf p)).mapPort p fun q => { q with stream := left }).settle
    else .next s
  | _ => .next s

end Sys2Proof.Machine
end

