-- ==== Sys2Proof/Machine/Lanes.lean ====
section
/-! DEFINITION. What several events do to lanes: the promotion decision (R107), the stop of a walk (R111), the end of
RUNNING lanes at a trip (R123), the trip and the halt (R153, R156), the return of the scan to IDLE (R142), and the
ending of lanes by the two resets (R14, R114, R127).
-/

namespace Sys2Proof.Machine

/-! ## The promotion decision -/

/-- The lane is promoted: its mode has a promote target and either an UNKNOWN pixel was claimed or the worn ratio is
met (R107). -/
def promotes (m : ModeRecord) (l : Lane) : Bool :=
  m.promote.isSome &&
  (decide (0 < l.unknownClaimed) || (decide (0 < l.changing) && decide (m.ratio * l.changing ≤ l.worn * 256)))

/-- The lane with its final mode, promoted flag and frame count fixed (R107, R108). -/
def Lane.decided (l : Lane) (m : ModeRecord) : Lane :=
  if promotes m l then
    { l with finalMode := m.promote.getD l.requestedMode, promoted := true, frameCount := l.longestPromoted }
  else { l with finalMode := l.requestedMode, promoted := false, frameCount := l.longestRequested }

/-- The walk of the lane being surveyed stops: the decision is made and the Survey Engine is idle (R107, R111). A
read of the visit under way is abandoned. -/
def State.closeSurvey (s : State) : State :=
  match s.survey with
  | some w => (s.mapLane w.lane fun l => l.decided w.mode).withSurvey none
  | none => s

/-! ## The scan's return to IDLE -/

/-- The scan returns to IDLE (R142). A pending frame-mark row becomes the row in force, so that none is pending in IDLE
(R144, R147, R163; Log 15). -/
def Scanner.toIdle (c : Scanner) : Scanner :=
  { c with
    scanning := false, band := none, period := none, row := none, walkRow := 0, walkCol := 0,
    markRow := c.pendingMark.getD c.markRow, pendingMark := none }

/-! ## Trips (R153) and the halt (R156) -/

/-- The Supply Sequencer's own part of a trip: TRIPPED, or HALTED when the recovery mark is set. -/
def Supply.trip (u : Supply) (cause : TripCause) : Supply :=
  { u with state := if u.recovery then .halted else .tripped, cause := cause, riseTimer := none, parkTimer := none,
           fallTimer := some u.fallDuration, recovery := true, windDown := false }

/-- Every RUNNING lane retires FAULT, in lane number order (R123). -/
def State.faultRunning (s : State) : State := (s.lanesIn .running).foldl (State.joinRetire .fault .faulted) s

/-- The halt's further effects on lanes: the lane in SURVEY, then the ARMED lanes in lane number order, join the
retire list released; every PENDING lane is FREE, in the order of the survey list (R113, R156). -/
def State.haltLanes (s : State) : State :=
  let armed := s.lanesIn .armed
  let surveyed := s.lanesIn .survey
  let t := (surveyed ++ armed).foldl (State.joinRetire .release .faulted) s.closeSurvey
  let t := t.withArmingList []
  (t.surveyList.foldl (State.endPending .faulted) t).reconsider

/-- A trip, or a halt when the recovery mark is set, in one event (R153, R156). -/
def State.trip (s : State) (cause : TripCause) : State :=
  let halts := s.supply.recovery
  let t := s.withSupply (s.supply.trip cause)
  let t := t.faultRunning
  let t := t.withScan t.scan.toIdle
  let t := t.raiseBoth .supplyFault
  let t := if halts then (t.raiseBoth .halted).haltLanes else t
  t.startRetire

/-! ## Lanes ended by a reset -/

/-- A reset takes a lane's report away (R114, R127). -/
def State.silence (mine : Port → Bool) (s : State) (l : LaneId) : State :=
  if mine (s.lane l).owner && decide ((s.lane l).state ≠ .free) then s.mapLane l fun r => { r with report := false }
  else s

/-- The lanes of `mine` in a state, in number order. -/
def State.lanesOf (s : State) (mine : Port → Bool) (st : LaneState) : List LaneId :=
  (s.lanesIn st).filter fun l => mine (s.lane l).owner

/-- A reset ends the lanes of `mine`, each as a WITHDRAW would but with no done record (R14, R114, R127): PENDING ones
are FREE, the one in SURVEY and the ARMED ones are released, RUNNING ones are marked for abort, RETIRING ones go
on. -/
def State.endLanes (s : State) (mine : Port → Bool) : State :=
  let s := laneIds.foldl (State.silence mine) s
  let s := (s.lanesOf mine .pending).foldl (State.endPending .withdrawn) s
  let stopped := s.lanesOf mine .survey
  let s := if stopped.isEmpty then s else s.closeSurvey
  let released := laneIds.filter fun l => stopped.contains l || (s.lanesOf mine .armed).contains l
  let s := released.foldl (State.joinRetire .release .withdrawn) s
  let s := s.withArmingList (s.armingList.filter fun l => !released.contains l)
  let s := (s.lanesOf mine .running).foldl (fun t l => t.mapLane l fun r => { r with abort := true }) s
  s.startRetire

end Sys2Proof.Machine
end

