-- ==== Sys2Proof/Machine/Update.lean ====
section
/-! DEFINITION. Update requests, the Update Queue and zones: SUBMIT_UPDATE, WITHDRAW, DRAIN_SUBMIT_ENTRY, RESERVE_ZONE,
RELEASE_ZONE and ZONE_LAPSE (R70 to R93).
-/

namespace Sys2Proof.Machine

/-! ## SUBMIT_UPDATE -/

/-- The policy that a byte names (R182). -/
def parsePolicy (b : Byte) : Option Policy := if b = 0 then some .hold else if b = 1 then some .skip else none

/-- The port has a request with the tag in its stream, in the queue or in a lane in use (R72, R73). -/
def State.tagBusy (s : State) (p : Port) (tag : Nat) : Bool :=
  (s.streamRequests p).any (fun q => decide (q.tag = tag)) ||
  s.queue.any (fun q => decide (q.port = p) && decide (q.tag = tag)) ||
  laneIds.any fun l =>
    decide ((s.lane l).state ≠ .free) && decide ((s.lane l).owner = p) && decide ((s.lane l).tag = tag)

/-- Places held in the queue and both streams together (R74). -/
def State.placesHeld (s : State) : Nat :=
  s.queue.length + (s.streamRequests .a).length + (s.streamRequests .b).length

/-- Places held by one port (R74). -/
def State.placesOf (s : State) (p : Port) : Nat :=
  s.queue.countP (fun q => decide (q.port = p)) + (s.streamRequests p).length

/-- The request of a SUBMIT_UPDATE's bytes, in port coordinates; none when a parameter is refused (R71). -/
def parseSubmit (p : Port) (req : List Byte) : Option Request :=
  match req with
  | tag :: mode :: rest =>
    match parsePolicy (rest[8]?.getD 0xFF), parseFlag (rest[9]?.getD 0xFF) with
    | some pol, some urg =>
      let r := parseRect (rest.take 8)
      if tag = 0 ∨ 7 < mode.toNat ∨ r.ordered = false then none
      else some { port := p, tag := tag.toNat, mode := mode.toNat, rect := r, policy := pol, urgent := urg }
    | _, _ => none
  | _ => none

/-- SUBMIT_UPDATE's effect: the tests of R71 and R72 in order, then a submit entry at the tail of the stream. -/
def effectSubmitUpdate (p : Port) (req : List Byte) (s : State) : State :=
  match parseSubmit p req with
  | none => s.setResult p .badParam
  | some q =>
    if s.supply.state = .halted then s.setResult p .halted
    else if s.tagBusy p q.tag then s.setResult p .duplicateTag
    else if Config.queuePlaces < s.placesHeld + 1 ∨ Config.portPlaces < s.placesOf p + 1 then
      s.setResult p .queueFull
    else
      let ctx := (s.port p).ctx
      let c := clampToArea ctx s.width s.height q.rect
      (s.pushEntry p (.submit { q with rect := rectToPanel ctx s.width s.height c })).setResult p
        (clampResult (c ≠ q.rect))

/-- SUBMIT_UPDATE. -/
def execSubmitUpdate (p : Port) (req : List Byte) (s : State) : Host.Outcome State Fault Refusal :=
  .next (s.transact p (.fixed 12) req (.submitUpdate p req) (effectSubmitUpdate p req)).settle

/-! ## Entry into the Update Queue -/

/-- The VALID table does not define the mode (R75, R82). -/
def State.undefinedMode (s : State) (mode : Nat) : Bool :=
  s.tableValid && (match s.table.table with | some t => !t.defines mode | none => false)

/-- A request passes from the head of a stream to the queue, or ends BAD_MODE (R75, R83). -/
def State.enterQueue (s : State) (q : Request) : State :=
  if s.undefinedMode q.mode then s.appendDone q.port (DoneRecord.unsurveyed q.tag q.mode .badMode)
  else (s.withQueue (s.queue ++ [q])).reconsider

/-- DRAIN_SUBMIT_ENTRY (R60, R75). -/
def execDrainSubmitEntry (p : Port) (s : State) : Host.Outcome State Fault Refusal :=
  match (s.port p).stream with
  | .submit q :: rest => .next ((s.mapPort p fun x => { x with stream := rest }).enterQueue q).settle
  | _ => .next s

/-! ## WITHDRAW -/

/-- The lane in use that holds the port's tag (R84). -/
def State.laneOfTag (s : State) (p : Port) (tag : Nat) : Option LaneId :=
  laneIds.find? fun l =>
    decide ((s.lane l).state ≠ .free) && decide ((s.lane l).owner = p) && decide ((s.lane l).tag = tag)

/-- A lane is withdrawn, by its state (R84, R110, R111, R124, R125). -/
def State.withdrawLane (s : State) (p : Port) (l : LaneId) : State :=
  match (s.lane l).state with
  | .pending => ((s.endPending .withdrawn l).reconsider).setResult p .ok
  | .survey => ((State.joinRetire .release .withdrawn s.closeSurvey l).startRetire).setResult p .ok
  | .armed =>
    let t := s.withArmingList (s.armingList.filter fun k => decide (k ≠ l))
    ((State.joinRetire .release .withdrawn t l).startRetire).setResult p .ok
  | .running => (s.mapLane l fun r => { r with abort := true }).setResult p .ok
  | .retiring => s.setResult p .tooLate
  | .free => s.setResult p .unknownTag

/-- The entry is the submit entry of the tag. -/
def Entry.hasTag (tag : Nat) (e : Entry) : Bool :=
  match e with
  | .submit q => decide (q.tag = tag)
  | _ => false

/-- WITHDRAW's effect (R84): the port's request of the tag is sought in its stream, in the queue and in the lanes. -/
def effectWithdraw (p : Port) (req : List Byte) (s : State) : State :=
  let tag := (req.head?.getD 0).toNat
  if tag = 0 then s.setResult p .badParam
  else match (s.port p).stream.find? (Entry.hasTag tag) with
    | some e =>
      let mode := (e.request.map Request.mode).getD 0
      ((s.mapPort p fun x => { x with stream := x.stream.eraseP (Entry.hasTag tag) }).appendDone p
        (DoneRecord.unsurveyed tag mode .withdrawn)).setResult p .ok
    | none =>
      let mine := fun q : Request => decide (q.port = p) && decide (q.tag = tag)
      match s.queue.find? mine with
      | some q =>
        (((s.withQueue (s.queue.eraseP mine)).appendDone p
          (DoneRecord.unsurveyed tag q.mode .withdrawn)).reconsider).setResult p .ok
      | none =>
        match s.laneOfTag p tag with
        | some l => s.withdrawLane p l
        | none => s.setResult p .unknownTag

/-- WITHDRAW. -/
def execWithdraw (p : Port) (req : List Byte) (s : State) : Host.Outcome State Fault Refusal :=
  .next (s.transact p (.fixed 1) req (.withdraw p req) (effectWithdraw p req)).settle

/-! ## Zones -/

/-- The zone that a byte names (R87, R88). -/
def parseZone (b : Byte) : Option (Fin 4) := if h : b.toNat < 4 then some ⟨b.toNat, h⟩ else none

/-- RESERVE_ZONE's effect (R87). -/
def effectReserveZone (p : Port) (req : List Byte) (s : State) : State :=
  let r := parseRect (req.drop 1)
  match req.head?.bind parseZone with
  | none => s.setResult p .badParam
  | some z =>
    if r.ordered = false then s.setResult p .badParam
    else if (s.zone z).any fun zone => decide (zone.owner ≠ p) then s.setResult p .notOwner
    else
      let ctx := (s.port p).ctx
      let c := clampToArea ctx s.width s.height r
      (s.setZone z (some { owner := p, rect := rectToPanel ctx s.width s.height c,
                           lapse := s.zoneDuration })).setResult p (clampResult (c ≠ r))

/-- RESERVE_ZONE. -/
def execReserveZone (p : Port) (req : List Byte) (s : State) : Host.Outcome State Fault Refusal :=
  .next (s.transact p (.fixed 9) req (.reserveZone p req) (effectReserveZone p req)).settle

/-- RELEASE_ZONE's effect (R88). -/
def effectReleaseZone (p : Port) (req : List Byte) (s : State) : State :=
  match req.head?.bind parseZone with
  | none => s.setResult p .badParam
  | some z =>
    match s.zone z with
    | none => s.setResult p .ok
    | some zone =>
      if zone.owner = p then ((s.setZone z none).reconsider).setResult p .ok else s.setResult p .notOwner

/-- RELEASE_ZONE. -/
def execReleaseZone (p : Port) (req : List Byte) (s : State) : Host.Outcome State Fault Refusal :=
  .next (s.transact p (.fixed 1) req (.releaseZone p req) (effectReleaseZone p req)).settle

/-- A timer's expiry in DOZE returns the part to RUN (R163). -/
def State.leaveDoze (s : State) : State :=
  if s.power.state = .doze then s.withPower { s.power with state := .run } else s

/-- ZONE_LAPSE (R89). -/
def execZoneLapse (z : Fin 4) (s : State) : Host.Outcome State Fault Refusal :=
  match s.zone z with
  | some zone => .next (((s.leaveDoze.setZone z none).raise zone.owner .zoneLapsed).reconsider).settle
  | none => .next s

end Sys2Proof.Machine
end

