-- ==== Sys2Proof/Machine/Temperature.lean ====
section
/-! DEFINITION. Temperature reports, band selection and the stale timer (R39 to R51).
-/

namespace Sys2Proof.Machine

/-- The band with hysteresis (R42): up to count(T − h), down to count(T + h), otherwise kept. -/
def bandWithHysteresis (t : Table) (h : Nat) (band : Nat) (x : Int) : Nat :=
  let u := t.count (x - h)
  let d := t.count (x + h)
  if band < u then u else if d < band then d else band

/-- The band after a report of the clamped temperature `x` (R40, R42, R43). -/
def State.bandAfterReport (s : State) (x : Int) : Option Nat :=
  match s.tableValid, s.table.table with
  | true, some t =>
    match s.temp.freshness, s.temp.band with
    | .fresh, some b => some (bandWithHysteresis t s.temp.hysteresis b x)
    | _, _ => some (t.count x)
  | _, _ => none

/-- REPORT_TEMPERATURE's effect (R40, R42 to R44). -/
def effectReportTemperature (p : Port) (req : List Byte) (s : State) : State :=
  let reported := (req.head?.getD 0).toInt
  let x := clampInt Config.minTemperature Config.maxTemperature reported
  (s.withTemp { s.temp with
    freshness := .fresh, effective := some x, band := s.bandAfterReport x,
    staleTimer := some s.temp.staleDuration }).setResult p (clampResult (x ≠ reported))

/-- REPORT_TEMPERATURE. -/
def execReportTemperature (p : Port) (req : List Byte) (s : State) : Host.Outcome State Fault Refusal :=
  .next (s.transact p (.fixed 1) req (.reportTemperature p req) (effectReportTemperature p req)).settle

/-- STALE_TIMER_EXPIRY (R44, R163). -/
def execStaleTimerExpiry (s : State) : Host.Outcome State Fault Refusal :=
  if s.temp.staleTimer.isSome then .next s.leaveDoze.goStale.settle else .next s

end Sys2Proof.Machine
end

