-- ==== Sys2Proof/Machine/TableLoad.lean ====
section
/-! DEFINITION. The loading protocol of the Waveform Table: TABLE_BEGIN, TABLE_DATA, TABLE_END, TABLE_ABORT and the end
of a validation (R24 to R29, R35, R36, R45, R82).
-/

namespace Sys2Proof.Machine

/-- TABLE_BEGIN's effect (R25, R36, R45). -/
def effectTableBegin (p : Port) (_req : List Byte) (s : State) : State :=
  let start := fun t : State =>
    (t.withTable { phase := .loading p false, memory := [], received := 0, table := none }).setResult p .ok
  if s.allFree = false then s.setResult p .inUse
  else match s.table.phase with
    | .loading owner _ => if owner = p then start s else s.setResult p .loadInProgress
    | .valid => start ((s.withTemp { s.temp with band := none }).raiseBoth .tableChanged)
    | _ => start s

/-- TABLE_BEGIN. -/
def execTableBegin (p : Port) (req : List Byte) (s : State) : Host.Outcome State Fault Refusal :=
  .next (s.transact p (.fixed 0) req (.tableBegin p req) (effectTableBegin p req)).settle

/-- TABLE_DATA's effect (R26, R29). A load being validated takes no data: its owner's READY is low (Log 31). -/
def effectTableData (p : Port) (req : List Byte) (s : State) : State :=
  match s.table.phase with
  | .loading owner validating =>
    if owner = p ∧ validating = false then
      if Config.tableBytes < s.table.received + req.length then
        (s.withTable { s.table with phase := .invalid .tooLarge }).setResult p .tooLarge
      else
        (s.withTable { s.table with memory := s.table.memory ++ req,
                                    received := s.table.received + req.length }).setResult p .ok
    else s.setResult p .loadInProgress
  | _ => s.setResult p .notLoading

/-- TABLE_DATA. -/
def execTableData (p : Port) (req : List Byte) (s : State) : Host.Outcome State Fault Refusal :=
  .next (s.transact p .stream req (.tableData p req) (effectTableData p req)).settle

/-- TABLE_END's effect (R27, R29). -/
def effectTableEnd (p : Port) (_req : List Byte) (s : State) : State :=
  match s.table.phase with
  | .loading owner validating =>
    if owner = p ∧ validating = false then
      (s.withTable { s.table with phase := .loading p true }).setResult p .ok
    else s.setResult p .loadInProgress
  | _ => s.setResult p .notLoading

/-- TABLE_END. -/
def execTableEnd (p : Port) (req : List Byte) (s : State) : Host.Outcome State Fault Refusal :=
  .next (s.transact p (.fixed 0) req (.tableEnd p req) (effectTableEnd p req)).settle

/-- A load ends ABORTED: the bytes received are discarded, their count still reads (R28, R37, R38, Log 25). -/
def State.abortLoad (s : State) : State :=
  s.withTable { s.table with phase := .invalid .aborted, memory := [] }

/-- TABLE_ABORT's effect (R28). -/
def effectTableAbort (p : Port) (_req : List Byte) (s : State) : State :=
  match s.table.phase with
  | .loading owner validating =>
    let t := if validating && decide (owner ≠ p) then s.abortLoad.setResult owner .aborted else s.abortLoad
    t.setResult p .ok
  | _ => s.setResult p .notLoading

/-- TABLE_ABORT. -/
def execTableAbort (p : Port) (req : List Byte) (s : State) : Host.Outcome State Fault Refusal :=
  .next (s.transact p (.fixed 0) req (.tableAbort p req) (effectTableAbort p req)).settle

/-- The sweep of the queue on entry to VALID, from head to tail (R82): the requests kept, and the ones removed. -/
def State.sweepQueue (s : State) : State :=
  let gone := s.queue.filter fun q => s.undefinedMode q.mode
  gone.foldl (fun t q => t.appendDone q.port (DoneRecord.unsurveyed q.tag q.mode .badMode))
    (s.withQueue (s.queue.filter fun q => !s.undefinedMode q.mode))

/-- The table enters VALID (R35, R36, R45, R82, R77). -/
def State.enterValid (s : State) (t : Table) (owner : Port) : State :=
  let s := s.withTable { s.table with phase := .valid, table := some t }
  let s := (s.setResult owner .ok).raiseBoth .tableChanged
  let s := s.withTemp { s.temp with band := s.temp.effective.map t.count }
  s.sweepQueue.reconsider

/-- VALIDATION_END (R35). -/
def execValidationEnd (s : State) : Host.Outcome State Fault Refusal :=
  match s.table.phase with
  | .loading owner true =>
    match validateImage s.table.memory with
    | .ok t => .next (s.enterValid t owner).settle
    | .error code => .next ((s.withTable { s.table with phase := .invalid code }).setResult owner code).settle
  | _ => .next s

end Sys2Proof.Machine
end

