-- ==== Sys2Proof/Machine/Settings.lean ====
section
/-! DEFINITION. Shared settings: SET_LIMITS, SET_TIMERS, SET_FRAME_MARK (R48, R91, R106, R144, R158, R167, R177) and the
enable set (R173).
-/

namespace Sys2Proof.Machine

/-- A one-byte request value. -/
def reqByte (req : List Byte) (i : Nat) : Nat := (req[i]?.getD 0).toNat

/-- A two-byte request value. -/
def reqWord (req : List Byte) (i : Nat) : Nat := word16 (req[i]?.getD 0) (req[i + 1]?.getD 0)

/-- SET_LIMITS's effect (R48, R106). -/
def effectSetLimits (p : Port) (req : List Byte) (s : State) : State :=
  let r := min (reqByte req 0) 127
  let w := min (reqByte req 1) 15
  let h := min (reqByte req 2) 5
  ((s.withLimits r w).withTemp { s.temp with hysteresis := h }).setResult p
    (clampResult (r ≠ reqByte req 0 ∨ w ≠ reqByte req 1 ∨ h ≠ reqByte req 2))

/-- SET_LIMITS. -/
def execSetLimits (p : Port) (req : List Byte) (s : State) : Host.Outcome State Fault Refusal :=
  .next (s.transact p (.fixed 3) req (.setLimits p req) (effectSetLimits p req)).settle

/-- SET_TIMERS's effect: park, rise, fall, doze, stale and zone durations (R158, R167, R48, R91). A running timer is
not touched. -/
def effectSetTimers (p : Port) (req : List Byte) (s : State) : State :=
  let park := clampNat 0 10000 (reqWord req 0)
  let rise := clampNat 1 255 (reqWord req 2)
  let fall := clampNat 1 255 (reqWord req 4)
  let doze := clampNat 0 10000 (reqWord req 6)
  let stale := clampNat 1 600 (reqWord req 8)
  let zone := clampNat 100 10000 (reqWord req 10)
  let t := s.withSupply { s.supply with parkDuration := park, riseDuration := rise, fallDuration := fall }
  let t := t.withPower { t.power with dozeDelay := doze }
  let t := t.withTemp { t.temp with staleDuration := stale }
  (t.withZoneDuration zone).setResult p
    (clampResult (park ≠ reqWord req 0 ∨ rise ≠ reqWord req 2 ∨ fall ≠ reqWord req 4 ∨ doze ≠ reqWord req 6 ∨
      stale ≠ reqWord req 8 ∨ zone ≠ reqWord req 10))

/-- SET_TIMERS. -/
def execSetTimers (p : Port) (req : List Byte) (s : State) : Host.Outcome State Fault Refusal :=
  .next (s.transact p (.fixed 12) req (.setTimers p req) (effectSetTimers p req)).settle

/-- SET_FRAME_MARK's effect (R144). -/
def effectSetFrameMark (p : Port) (req : List Byte) (s : State) : State :=
  let row := min (reqWord req 0) (s.height - 1)
  let c := s.scan
  (s.withScan (if c.scanning then { c with pendingMark := some row }
    else { c with markRow := row, pendingMark := none })).setResult p (clampResult (row ≠ reqWord req 0))

/-- SET_FRAME_MARK. -/
def execSetFrameMark (p : Port) (req : List Byte) (s : State) : Host.Outcome State Fault Refusal :=
  .next (s.transact p (.fixed 2) req (.setFrameMark p req) (effectSetFrameMark p req)).settle

/-- SET_EVENT_ENABLE's effect (R173); bits 12 to 15 name no flag. -/
def effectSetEventEnable (p : Port) (req : List Byte) (s : State) : State :=
  let w := reqWord req 0
  if w < 4096 then
    (s.mapPort p fun q => { q with enables := BitVec.ofNat 12 w }).setResult p .ok
  else s.setResult p .badParam

/-- SET_EVENT_ENABLE. -/
def execSetEventEnable (p : Port) (req : List Byte) (s : State) : Host.Outcome State Fault Refusal :=
  .next (s.transact p (.fixed 2) req (.setEventEnable p req) (effectSetEventEnable p req)).settle

end Sys2Proof.Machine
end

