-- ==== Sys2Proof/Machine/Query.lean ====
section
/-! DEFINITION. The eight queries and their responses (R15, R37, R51, R145, R159, R171, R174, R176, R178, R185).
-/

namespace Sys2Proof.Machine

/-- A query that takes effect (R171): the response leads with the result as it stood before, the query's own effects
are made, the result becomes OK, the response replaces what the buffer held. -/
def State.answer (s : State) (p : Port) (data : List Byte) (own : PortState → PortState) : State :=
  let before := (s.port p).result.code
  (((s.mapPort p own).setResult p .ok)).mapPort p fun q => { q with response := before :: data }

/-! ## GET_RESULT, GET_ID, GET_EVENTS -/

/-- GET_RESULT's effect (R178). -/
def effectGetResult (p : Port) (_req : List Byte) (s : State) : State := s.answer p [] id

/-- GET_RESULT. -/
def execGetResult (p : Port) (req : List Byte) (s : State) : Host.Outcome State Fault Refusal :=
  .next (s.transact p (.query 0) req (.getResult p req) (effectGetResult p req)).settle

/-- GET_ID's data (R178, R185). -/
def idBytes : List Byte := bytesOf 2 Config.partNumber ++ [byteOf Config.revision, byteOf Config.tableFormat]

/-- GET_ID's effect (R178). -/
def effectGetId (p : Port) (_req : List Byte) (s : State) : State := s.answer p idBytes id

/-- GET_ID. -/
def execGetId (p : Port) (req : List Byte) (s : State) : Host.Outcome State Fault Refusal :=
  .next (s.transact p (.query 0) req (.getId p req) (effectGetId p req)).settle

/-- GET_EVENTS's data (R185). -/
def eventBytes (q : PortState) : List Byte := bytesOf 2 q.flags.toNat ++ [byteOf q.done.length]

/-- GET_EVENTS's effect (R174): every flag that the response reports as set is cleared. -/
def effectGetEvents (p : Port) (_req : List Byte) (s : State) : State :=
  s.answer p (eventBytes (s.port p)) fun q => { q with flags := 0 }

/-- GET_EVENTS. -/
def execGetEvents (p : Port) (req : List Byte) (s : State) : Host.Outcome State Fault Refusal :=
  .next (s.transact p (.query 0) req (.getEvents p req) (effectGetEvents p req)).settle

/-! ## GET_DONE -/

/-- The outcome codes of a done record (R185). -/
def UpdateOutcome.code : UpdateOutcome → Byte
  | .completed => 1
  | .empty => 2
  | .withdrawn => 3
  | .faulted => 4
  | .badMode => 5

/-- A done record's bytes (R185); without lane fields those read all ones. -/
def doneBytes (d : DoneRecord) : List Byte :=
  [byteOf d.tag, d.outcome.code, byteOf d.requestedMode, byteOf d.finalMode,
   byteOf ((if d.promoted then 1 else 0) + (if d.stale then 2 else 0))] ++
  match d.figures with
  | some f =>
    [bandByte f.band] ++ bytesOf 2 f.framesDriven ++ bytesOf 3 f.claimed ++ bytesOf 3 f.busySkipped ++
    bytesOf 3 f.zoneSkipped ++ bytesOf 3 f.unknownSkipped ++ bytesOf 3 f.saturated
  | none => notApplicable 18

/-- The record of no request (R176): tag 0, outcome NONE, every other field not applicable (Log 18). -/
def noDoneBytes : List Byte := [0, 0, 0xFF, 0xFF, 0x03] ++ notApplicable 18

/-- GET_DONE's effect (R176). -/
def effectGetDone (p : Port) (_req : List Byte) (s : State) : State :=
  match (s.port p).done with
  | d :: rest => s.answer p (doneBytes d) fun q => { q with done := rest }
  | [] => s.answer p noDoneBytes id

/-- GET_DONE. -/
def execGetDone (p : Port) (req : List Byte) (s : State) : Host.Outcome State Fault Refusal :=
  .next (s.transact p (.query 0) req (.getDone p req) (effectGetDone p req)).settle

/-! ## GET_PIXEL, GET_SCAN, GET_TABLE_INFO -/

/-- A pixel record's bytes (R185). -/
def pixelBytes (r : PixelRecord) : List Byte :=
  [levelByte r.shown, laneByte r.lane, byteOf r.target.val, (match r.variant with | .n => 0 | .p => 1),
   signedByte r.residue, byteOf r.wear]

/-- GET_PIXEL's effect (R15); BAD_PARAM forms a response of its first byte alone (R171). -/
def effectGetPixel (p : Port) (req : List Byte) (s : State) : State :=
  let x := reqWord req 0
  let y := reqWord req 2
  if x < s.width ∧ y < s.height then s.answer p (pixelBytes (s.pixel (x, y))) id
  else
    (s.mapPort p fun q => { q with response := [q.result.code] }).setResult p .badParam

/-- GET_PIXEL. -/
def execGetPixel (p : Port) (req : List Byte) (s : State) : Host.Outcome State Fault Refusal :=
  .next (s.transact p (.query 4) req (.getPixel p req) (effectGetPixel p req)).settle

/-- GET_SCAN's data (R145, R185). -/
def scanBytes (c : Scanner) : List Byte :=
  [flagByte c.scanning] ++ optionBytes 2 c.row ++ bytesOf 2 c.counter ++ [bandByte c.band] ++ bytesOf 2 c.markRow

/-- GET_SCAN's effect (R145). -/
def effectGetScan (p : Port) (_req : List Byte) (s : State) : State := s.answer p (scanBytes s.scan) id

/-- GET_SCAN. -/
def execGetScan (p : Port) (req : List Byte) (s : State) : Host.Outcome State Fault Refusal :=
  .next (s.transact p (.query 0) req (.getScan p req) (effectGetScan p req)).settle

/-- The header fields as GET_TABLE_INFO reports them, when VALID (R37, R185). -/
def headerBytes : Option Header → List Byte
  | some h =>
    [byteOf h.version, byteOf h.modeCount, byteOf h.bandCount, byteOf h.staleBand] ++ bytesOf 2 h.recipeCount ++
    bytesOf 4 h.length
  | none => notApplicable 10

/-- GET_TABLE_INFO's data (R37, R185). -/
def tableInfoBytes (u : TableUnit) : List Byte :=
  let count := bytesOf 3 u.received
  match u.phase with
  | .empty => [0, 0xFF, 0] ++ count ++ [0xFF] ++ headerBytes none
  | .loading owner validating => [1, portCode owner, flagByte validating] ++ count ++ [0xFF] ++ headerBytes none
  | .valid => [2, 0xFF, 0] ++ count ++ [0xFF] ++ headerBytes (u.table.map Table.header)
  | .invalid code => [3, 0xFF, 0] ++ count ++ [code.code] ++ headerBytes none

/-- GET_TABLE_INFO's effect (R37). -/
def effectGetTableInfo (p : Port) (_req : List Byte) (s : State) : State := s.answer p (tableInfoBytes s.table) id

/-- GET_TABLE_INFO. -/
def execGetTableInfo (p : Port) (req : List Byte) (s : State) : Host.Outcome State Fault Refusal :=
  .next (s.transact p (.query 0) req (.getTableInfo p req) (effectGetTableInfo p req)).settle

/-! ## GET_STATUS -/

/-- The codes of the lane states (R185). -/
def LaneState.code : LaneState → Byte
  | .free => 0 | .pending => 1 | .survey => 2 | .armed => 3 | .running => 4 | .retiring => 5

/-- A lane's three bytes (R94, R185). -/
def laneBytes (l : Lane) : List Byte :=
  if l.state = .free then [l.state.code, 0xFF, 0xFF] else [l.state.code, portCode l.owner, byteOf l.tag]

/-- A port's three counts (R76, R59, R185). -/
def State.countBytes (s : State) (p : Port) : List Byte :=
  [byteOf (s.queue.countP fun q => decide (q.port = p)), byteOf (s.streamRequests p).length,
   byteOf (s.port p).stream.length]

/-- A zone's byte (R86, R185). -/
def zoneByte : Option Zone → Byte
  | none => 0
  | some z => match z.owner with | .a => 1 | .b => 2

/-- The supply's byte (R159, R185). -/
def State.supplyByte (s : State) : Byte :=
  match s.supply.state with
  | .off => 0 | .rising => 1 | .on => if s.scan.scanning then 3 else 2 | .falling => 4 | .tripped => 5 | .halted => 6

/-- The codes of the trip causes (R185). -/
def TripCause.code : TripCause → Byte
  | .none => 0
  | .riseTimeout => 1
  | .railLost => 2

/-- The codes of the freshness (R185). -/
def Freshness.code : Freshness → Byte
  | .absent => 0
  | .fresh => 1
  | .stale => 2

/-- The status block after its result byte (R185). The power state reads RUN whenever a command is taken (R167). -/
def State.statusBytes (s : State) : List Byte :=
  laneIds.flatMap (fun l => laneBytes (s.lane l)) ++
  [laneByte (s.survey.map Survey.lane), laneByte (s.retire.map RetireWalk.lane)] ++
  s.countBytes .a ++ s.countBytes .b ++ zoneIds.map (fun z => zoneByte (s.zone z)) ++
  [s.supplyByte, flagByte s.supply.recovery, s.supply.cause.code, 1,
   byteOf ((if s.portA.consent then 1 else 0) + (if s.portB.consent then 2 else 0)),
   s.temp.freshness.code, (match s.temp.effective with | some x => signedByte x | none => 0x80),
   bandByte s.temp.band]

/-- GET_STATUS's effect (R51, R94, R159, R167). -/
def effectGetStatus (p : Port) (_req : List Byte) (s : State) : State := s.answer p s.statusBytes id

/-- GET_STATUS. -/
def execGetStatus (p : Port) (req : List Byte) (s : State) : Host.Outcome State Fault Refusal :=
  .next (s.transact p (.query 0) req (.getStatus p req) (effectGetStatus p req)).settle

end Sys2Proof.Machine
end

