-- ==== Sys2Proof/Machine/SurveyEngine.lean ====
section
/-! DEFINITION. The Survey Engine: SURVEY_START, SURVEY_VISIT, SURVEY_END (R97 to R109, R116).
-/

namespace Sys2Proof.Machine

/-- The band and stale flag that a survey takes (R46). -/
def State.surveyBand (s : State) : Option Nat × Bool :=
  match s.temp.freshness with
  | .fresh => (s.temp.band, false)
  | _ => (s.staleBand, true)

/-- SURVEY_START (R97): when the engine is idle and the survey list is not empty, its head lane enters SURVEY. -/
def execSurveyStart (s : State) : Host.Outcome State Fault Refusal :=
  match s.survey, s.surveyList with
  | none, l :: rest =>
    let m := s.modeRecord (s.lane l).requestedMode
    let t := s.mapLane l fun r => { r with state := .survey, band := s.surveyBand.1, stale := s.surveyBand.2 }
    let w : Survey :=
      { lane := l, pos := some (s.lane l).rect.origin, residueLimit := s.residueLimit, wearLimit := s.wearLimit,
        mode := m, promoteMode := m.promote.map s.modeRecord, read := none }
    .next ((t.withSurveyList rest).withSurvey (some w)).settle
  | _, _ => .next s

/-! ## A visit -/

/-- What the record visit finds (R100 to R104). -/
inductive Verdict where
  | busy
  | zoneSkip
  | unknownSkip
  | unchanged
  | claim
deriving DecidableEq, Repr

/-- The position lies in an active zone of a port other than the lane's owner (R101). -/
def State.zoneHolds (s : State) (owner : Port) (x : Pos) : Bool :=
  zoneIds.any fun z =>
    match s.zone z with
    | some zone => decide (zone.owner ≠ owner) && zone.rect.has x
    | none => false

/-- The tests of R100 to R103, in order, for a candidate target `t`. -/
def State.verdict (s : State) (w : Survey) (x : Pos) (t : Level) : Verdict :=
  let r := s.pixel x
  let l := s.lane w.lane
  if r.lane.isSome then .busy
  else if l.policy = .skip ∧ s.zoneHolds l.owner x then .zoneSkip
  else if r.shown = none ∧ w.mode.acceptsUnknown = false ∧ w.mode.promote = none then .unknownSkip
  else if r.shown = some t ∧ w.mode.drivesUnchanged = false then .unchanged
  else .claim

/-- The wear-out evaluation (R105). -/
def wornOut (w : Survey) (net : Int) (r : PixelRecord) : Bool :=
  decide ((w.residueLimit : Int) < |r.residue + net|) || decide (w.wearLimit < r.wear + w.mode.cost)

/-- The variant that a claim latches (R4). -/
def variantOf (residue : Int) : Variant := if 0 < residue then .p else .n

/-- The record of a pixel just claimed (R4, R104). -/
def PixelRecord.claimedBy (r : PixelRecord) (l : LaneId) (t : Level) : PixelRecord :=
  { r with lane := some l, target := t, variant := variantOf r.residue }

/-- The lane's counts after a claim (R104). -/
def State.claimCounts (s : State) (w : Survey) (r : PixelRecord) (t : Level) (l : Lane) : Lane :=
  let v := variantOf r.residue
  let asked := s.recipe l.requestedMode l.band r.shown t v
  let promoted := (w.mode.promote.map fun m => (s.recipe m l.band r.shown t v).length).getD 0
  { l with
    claimed := l.claimed + 1
    changing := if r.shown = some t then l.changing else l.changing + 1
    unknownClaimed := if r.shown = none then l.unknownClaimed + 1 else l.unknownClaimed
    longestRequested := max l.longestRequested asked.length
    longestPromoted := max l.longestPromoted promoted
    worn := if r.shown.isSome ∧ r.shown ≠ some t ∧ wornOut w asked.net r then l.worn + 1 else l.worn }

/-- The record visit of a survey visit (R100 to R104), with the level read. -/
def State.visitRecord (s : State) (w : Survey) (x : Pos) (v : Level) : State :=
  let t := quantize w.mode.levels v
  let r := s.pixel x
  match s.verdict w x t with
  | .busy => s.mapLane w.lane fun l => { l with busySkipped := l.busySkipped + 1 }
  | .zoneSkip => s.mapLane w.lane fun l => { l with zoneSkipped := l.zoneSkipped + 1 }
  | .unknownSkip => s.mapLane w.lane fun l => { l with unknownSkipped := l.unknownSkipped + 1 }
  | .unchanged => s
  | .claim => (s.mapLane w.lane (s.claimCounts w r t)).setPixel x (r.claimedBy w.lane t)

/-- A visit is finished and the walk moves on (R98). -/
def State.finishVisit (s : State) (w : Survey) (x : Pos) (v : Level) : State :=
  (s.visitRecord w x v).withSurvey
    (some { w with pos := (s.lane w.lane).rect.nextPos x, read := none })

/-- SURVEY_VISIT (R98): the read of the Image Store, granted in its turn (R53), then the record visit. -/
def execSurveyVisit (part : VisitPart) (s : State) : Host.Outcome State Fault Refusal :=
  match s.survey with
  | some w =>
    match w.pos, w.read with
    | some x, some v =>
      match part with
      | .whole => .next (s.finishVisit w x v).settle
      | .imageRead => .next s
    | some x, none =>
      if s.turn = some .survey then
        let v := s.level x
        let t := s.withLastGrant .survey
        match part with
        | .whole => .next (t.finishVisit w x v).settle
        | .imageRead => .next (t.withSurvey (some { w with read := some v })).settle
      else .next s
    | none, _ => .next s
  | none => .next s

/-- SURVEY_END (R107, R108): the walk is complete; the lane is FREE with EMPTY, RETIRING with NORMAL, or ARMED. -/
def execSurveyEnd (s : State) : Host.Outcome State Fault Refusal :=
  match s.survey with
  | some w =>
    match w.pos with
    | none =>
      let t := s.closeSurvey
      let l := t.lane w.lane
      if l.claimed = 0 then
        let u := t.reportLane w.lane (l.doneRecord .empty)
        .next ((u.setLane w.lane Lane.rest).reconsider).settle
      else if l.frameCount = 0 then
        .next ((State.joinRetire .normal .completed t w.lane).startRetire).settle
      else
        let u := t.mapLane w.lane fun r => { r with state := .armed, frameIndex := 0, abort := false }
        .next ((u.withArmingList (u.armingList ++ [w.lane])).raiseOnDemand).settle
    | some _ => .next s
  | none => .next s

end Sys2Proof.Machine
end

