-- ==== Sys2Proof/Machine/FrameScanner.lean ====
section
/-! DEFINITION. The Frame Scanner: SCAN_START, FRAME_ROW and FRAME_BOUNDARY (R117, R118, R120, R121, R136 to R143).
-/

namespace Sys2Proof.Machine

/-! ## The start of a frame -/

/-- A frame begins at row 0: the pending frame-mark row is taken, and a frame-mark row of 0 gives its pulse
(R137, R141, R143). -/
def Scanner.beginFrame (c : Scanner) : Scanner :=
  let mark := c.pendingMark.getD c.markRow
  { c with row := some 0, walkRow := 0, walkCol := 0, markRow := mark, pendingMark := none,
           markPulses := if mark = 0 then c.markPulses + 1 else c.markPulses }

/-- The lanes leave the arming list and enter RUNNING with frame index 0 (R117, R118). -/
def State.admitLane (s : State) (ls : List LaneId) : State :=
  let t := ls.foldl (fun t l => t.mapLane l fun r => { r with state := .running, frameIndex := 0 }) s
  t.withArmingList (s.armingList.filter fun l => !ls.contains l)

/-- SCAN_START (R118, R137): the supply ON, the scan IDLE, lanes ARMED. -/
def execScanStart (s : State) : Host.Outcome State Fault Refusal :=
  match s.armingList with
  | h :: _ =>
    if s.supply.state = .on ∧ s.scan.scanning = false then
      let band := (s.lane h).band
      let t := s.admitLane (s.armingList.filter fun l => decide ((s.lane l).band = band))
      let c := { t.scan with scanning := true, band := band, period := band.bind s.bandPeriod, counter := 0 }
      let t := t.withScan c.beginFrame
      .next (t.withSupply { t.supply with parkTimer := none }).settle
    else .next s
  | [] => .next s

/-! ## The frame walk -/

/-- One residue step, saturating at ±127 (R8). -/
def stepResidue (d : Drive) (r : Int) : Int :=
  match d with
  | .hold => r
  | _ => clampInt (-Config.residueBound) Config.residueBound (r + d.sign)

/-- The step would carry the residue past an end (R8). -/
def stepClips (d : Drive) (r : Int) : Bool :=
  match d with
  | .hold => false
  | _ => decide (r + d.sign < -Config.residueBound) || decide (Config.residueBound < r + d.sign)

/-- The record after the Frame Scanner's visit (R140). -/
def State.drivenRecord (s : State) (r : PixelRecord) : PixelRecord :=
  { r with residue := stepResidue (s.driveCode r) r.residue }

/-- How many of the visited records of a lane clip (R8). -/
def State.clips (s : State) (visits : Pos → Bool) (l : LaneId) : Nat :=
  s.pixels.countP fun c =>
    visits (c.1 % Config.maxWidth, c.1 / Config.maxWidth) && decide (c.2.lane = some l) &&
      stepClips (s.driveCode c.2) c.2.residue

/-- The Frame Scanner visits the records of the positions given (R138 to R140): each takes its residue step, and each
lane counts its clips, held at 65535. A record that is not listed names no lane and receives HOLD. -/
def State.drive (s : State) (visits : Pos → Bool) : State :=
  let pixels := s.pixels.map fun c =>
    (c.1, if visits (c.1 % Config.maxWidth, c.1 / Config.maxWidth) then s.drivenRecord c.2 else c.2)
  let t := laneIds.foldl (fun t l => t.mapLane l fun r =>
    { r with saturated := min Config.saturatedBound (r.saturated + s.clips visits l) }) s
  t.withPixels pixels

/-- The positions of a row from one column up to, not including, another. -/
def rowSpan (y c0 c1 : Nat) (x : Pos) : Bool := decide (x.2 = y) && decide (c0 ≤ x.1) && decide (x.1 < c1)

/-- FRAME_ROW (R138 to R140, R143): the walk visits the next `n` pixels of the row being taken. -/
def execFrameRow (n : Nat) (s : State) : Host.Outcome State Fault Refusal :=
  let c := s.scan
  if c.scanning ∧ c.walkRow < s.height ∧ 0 < n then
    let stop := min s.width (c.walkCol + n)
    let t := s.drive (rowSpan c.walkRow c.walkCol stop)
    let pulse := decide (c.walkCol = 0) && decide (c.walkRow = c.markRow) && decide (c.walkRow ≠ 0)
    .next (t.withScan
      { c with row := some c.walkRow
               walkRow := if stop = s.width then c.walkRow + 1 else c.walkRow
               walkCol := if stop = s.width then 0 else stop
               markPulses := if pulse then c.markPulses + 1 else c.markPulses }).settle
  else .next s

/-- The positions that the walk of the frame has still to visit (R138). -/
def State.unvisited (s : State) (x : Pos) : Bool :=
  decide (x.1 < s.width) && decide (x.2 < s.height) &&
  (decide (s.scan.walkRow < x.2) || (decide (s.scan.walkRow = x.2) && decide (s.scan.walkCol ≤ x.1)))

/-- The frame-mark row has still to be taken in this frame (R143). -/
def Scanner.markAhead (c : Scanner) (height : Nat) : Bool :=
  decide (c.markRow ≠ 0) && decide (c.markRow < height) &&
  (decide (c.walkRow < c.markRow) || (decide (c.walkRow = c.markRow) && decide (c.walkCol = 0)))

/-- The rows that the walk has not taken when the boundary comes are taken first, in the same step (Log 10). -/
def State.finishFrame (s : State) : State :=
  let t := s.drive s.unvisited
  t.withScan { s.scan with
    markPulses := if s.scan.markAhead s.height then s.scan.markPulses + 1 else s.scan.markPulses }

/-! ## The frame boundary -/

/-- A RUNNING lane's frame index rises by one, and the lane retires PARTIAL or NORMAL or stays (R121). -/
def State.advanceLane (s : State) (l : LaneId) : State :=
  let t := s.mapLane l fun r => { r with frameIndex := r.frameIndex + 1 }
  if (t.lane l).abort then State.joinRetire .partialDrive .withdrawn t l
  else if (t.lane l).frameIndex = (t.lane l).frameCount then State.joinRetire .normal .completed t l
  else t

/-- Every RUNNING lane advances, in lane number order (R121). -/
def State.advance (s : State) : State := (s.lanesIn .running).foldl State.advanceLane s

/-- The lanes that a running scan admits: those of its band with no lane of another band ahead (R117). -/
def State.admissible (s : State) : List LaneId :=
  s.armingList.takeWhile fun l => decide ((s.lane l).band = s.scan.band)

/-- The boundary leaves no lane RUNNING: the scan is IDLE, and the supply parks or, after a PART_RESET, falls
(R142, R151, R160). -/
def State.endScan (s : State) : State :=
  let t := s.withScan s.scan.toIdle
  t.withSupply (if s.supply.windDown then { s.supply.enterFalling with windDown := false }
    else { s.supply with parkTimer := some s.supply.parkDuration })

/-- FRAME_BOUNDARY (R141). -/
def execFrameBoundary (s : State) : Host.Outcome State Fault Refusal :=
  if s.scan.scanning then
    let t := s.finishFrame
    let t := t.withScan { t.scan with counter := (t.scan.counter + 1) % 65536 }
    let t := t.withSupply { t.supply with recovery := false }
    let t := t.advance
    let t := if (t.lanesIn .running).isEmpty then t.endScan
      else
        let u := t.admitLane t.admissible
        u.withScan u.scan.beginFrame
    .next t.startRetire.settle
  else .next s

end Sys2Proof.Machine
end

