-- ==== Sys2Proof/Machine/RetireEngine.lean ====
section
/-! DEFINITION. The Retire Engine: RETIRE_VISIT and RETIRE_WALK_END (R128 to R134, R9, R11).
-/

namespace Sys2Proof.Machine

/-- What the retire kind does to a pixel's shown level. -/
inductive Writeback where
  | target
  | keep
  | unknown
deriving DecidableEq, Repr

/-- The table of R130, by kind, recipe length `len` and frames completed `f`. -/
def writeback (k : RetireKind) (len f : Nat) : Writeback :=
  match k with
  | .normal => .target
  | .release => .keep
  | .partialDrive => if len ≤ f then .target else if f = 0 then .keep else .unknown
  | .fault => if len ≤ f then .target else .unknown

/-- The wear of a pixel that reaches its target (R9). -/
def wearAfter (clearing : Bool) (cost wear : Nat) : Nat := if clearing then 0 else min Config.wearBound (wear + cost)

/-- The record after its release (R11, R130, R131). -/
def PixelRecord.retired (r : PixelRecord) (b : Writeback) (clearing : Bool) (cost : Nat) : PixelRecord :=
  { shown := match b with
      | .target => some r.target
      | .keep => r.shown
      | .unknown => none
    lane := none, target := 0, variant := .n, residue := r.residue
    wear := match b with
      | .target => wearAfter clearing cost r.wear
      | _ => r.wear }

/-- The writeback of one pixel of the lane walked (R129, R130). -/
def State.writebackOf (s : State) (l : Lane) (r : PixelRecord) : Writeback :=
  writeback (l.kind.getD .release) (s.recipe l.finalMode l.band r.shown r.target r.variant).length l.frameIndex

/-- RETIRE_VISIT (R129): a record that names the lane walked is written and released, any other is left. -/
def execRetireVisit (s : State) : Host.Outcome State Fault Refusal :=
  match s.retire with
  | some w =>
    match w.pos with
    | some x =>
      let l := s.lane w.lane
      let r := s.pixel x
      let t := if r.lane = some w.lane then
          s.setPixel x (r.retired (s.writebackOf l r) w.clearing w.cost)
        else s
      .next (t.withRetire (some { w with pos := l.rect.nextPos x })).settle
    | none => .next s
  | none => .next s

/-- RETIRE_WALK_END (R133): the lane is FREE with its done record, the Scheduler reconsiders, the next walk starts. -/
def execRetireWalkEnd (s : State) : Host.Outcome State Fault Refusal :=
  match s.retire with
  | some w =>
    match w.pos with
    | none =>
      let l := s.lane w.lane
      let t := s.reportLane w.lane (l.doneRecord (l.outcome.getD .completed))
      let t := (t.setLane w.lane Lane.rest).withRetireList (t.retireList.filter fun k => decide (k ≠ w.lane))
      .next (((t.withRetire none).reconsider).startRetire).settle
    | some _ => .next s
  | none => .next s

end Sys2Proof.Machine
end

