-- ==== Sys2Proof/Machine/SupplySequencer.lean ====
section
/-! DEFINITION. The Supply Sequencer's events: RAIL_GOOD_ASSERTED, RAIL_LOST, RISE_TIMEOUT, PARK_TIMER_EXPIRY and
FALL_TIMER_EXPIRY (R149 to R157).
-/

namespace Sys2Proof.Machine

/-- RAIL_GOOD_ASSERTED (R149, R150): RISING enters ON and parked; in any other state only the level changes. -/
def execRailGoodAsserted (s : State) : Host.Outcome State Fault Refusal :=
  let u := { s.supply with railGood := true }
  .next (s.withSupply (if u.state = .rising then u.enterOn else u)).settle

/-- RAIL_LOST (R149, R153): in ON a trip; in any other state only the level changes. -/
def execRailLost (s : State) : Host.Outcome State Fault Refusal :=
  let t := s.withSupply { s.supply with railGood := false }
  .next (if t.supply.state = .on then t.trip .railLost else t).settle

/-- RISE_TIMEOUT (R150, R153). -/
def execRiseTimeout (s : State) : Host.Outcome State Fault Refusal :=
  if s.supply.state = .rising ∧ s.supply.riseTimer.isSome then .next (s.trip .riseTimeout).settle else .next s

/-- PARK_TIMER_EXPIRY (R151). -/
def execParkTimerExpiry (s : State) : Host.Outcome State Fault Refusal :=
  if s.supply.state = .on ∧ s.supply.parkTimer.isSome then
    .next (s.withSupply s.supply.enterFalling).settle
  else .next s

/-- FALL_TIMER_EXPIRY (R152, R154, R157): FALLING and TRIPPED go to OFF, and on to RISING with demand; HALTED stays. -/
def execFallTimerExpiry (s : State) : Host.Outcome State Fault Refusal :=
  if s.supply.fallTimer.isSome then
    let u := { s.supply with fallTimer := none }
    match u.state with
    | .falling | .tripped => .next ((s.withSupply { u with state := .off }).raiseOnDemand).settle
    | _ => .next (s.withSupply u).settle
  else .next s

end Sys2Proof.Machine
end

