-- ==== Sys2Proof/Machine/PowerControl.lean ====
section
/-! DEFINITION. Start-up and power: POWER_ON_RESET, RESET_N_RISE, INIT_SWEEP_END, WAKING_END, DOZE_TIMER_EXPIRY and
SLEEP (R161 to R167).
-/

namespace Sys2Proof.Machine

/-- A transaction under way is abandoned: discarded whole at its rise (R161, R69). -/
def Transaction.abandoned : Transaction → Transaction
  | .closed => .closed
  | _ => .discarded

/-- POWER_ON_RESET (R161): every block takes its power-on values; RESET_N has the level given, the selects and
RAIL_GOOD, which are inputs, keep theirs. -/
def execPowerOnReset (resetN : Bool) (s : State) : Host.Outcome State Fault Refusal :=
  .next (State.powerOn resetN s.supply.railGood s.portA.txn.abandoned s.portB.txn.abandoned s.pending)

/-- RESET_N_RISE (R161): the hold in INIT ends and the init sweep runs afresh. -/
def execResetNRise (s : State) : Host.Outcome State Fault Refusal :=
  .next (if s.power.state = .init then s.withPower { s.power with resetN := true } else s)

/-- INIT_SWEEP_END (R13, R68, R161): both stores are swept and the part enters RUN. -/
def execInitSweepEnd (s : State) : Host.Outcome State Fault Refusal :=
  if s.power.state = .init ∧ s.power.resetN then
    let t := ((s.withImage []).withPixels []).withLastGrant .survey
    .next (t.withPower { t.power with state := .run }).settle
  else .next s

/-- WAKING_END (R166). -/
def execWakingEnd (s : State) : Host.Outcome State Fault Refusal :=
  if s.power.state = .waking then .next (s.withPower { s.power with state := .run }).settle else .next s

/-- DOZE_TIMER_EXPIRY (R162, R163). -/
def execDozeTimerExpiry (s : State) : Host.Outcome State Fault Refusal :=
  if s.power.state = .run ∧ s.power.dozeTimer.isSome then
    .next (s.withPower { s.power with state := .doze, dozeTimer := none }).settle
  else .next s

/-- SLEEP's effect (R164). -/
def effectSleep (p : Port) (_req : List Byte) (s : State) : State :=
  (s.mapPort p fun q => { q with consent := true }).setResult p .ok

/-- SLEEP. -/
def execSleep (p : Port) (req : List Byte) (s : State) : Host.Outcome State Fault Refusal :=
  .next (s.transact p (.fixed 0) req (.sleep p req) (effectSleep p req)).settle

end Sys2Proof.Machine
end

