-- ==== Sys2Proof/Machine/Resets.lean ====
section
/-! DEFINITION. The two reset commands, PORT_RESET and PART_RESET (R179, R180 and the reset table of every chapter).
-/

namespace Sys2Proof.Machine

/-- What both resets return to its starting point in a port (R69, R179, R180). A PART_RESET that was held itself drops
what the other port still holds (Log 36). -/
def PortState.cleared (q : PortState) (w h : Nat) : PortState :=
  { q with ctx := PortContext.initial w h, stream := [], result := .ok, response := [], flags := 0,
           enables := defaultEnables, done := [], consent := false, held := [] }

/-- The zones of `mine` are freed, with no ZONE_LAPSED (R93). -/
def State.freeZones (s : State) (mine : Port → Bool) : State :=
  zoneIds.foldl (fun t z => if (t.zone z).any fun zone => mine zone.owner then t.setZone z none else t) s

/-- PORT_RESET's effect (R179; R14, R38, R69, R92, R93, R114, R127). -/
def effectPortReset (p : Port) (_req : List Byte) (s : State) : State :=
  let mine := fun q => decide (q = p)
  let t := s.endLanes mine
  let t := t.withQueue (t.queue.filter fun q => !mine q.port)
  let t := t.freeZones mine
  let t := match t.table.phase with
    | .loading owner _ => if owner = p then t.abortLoad else t
    | _ => t
  let t := t.mapPort p fun q => q.cleared t.width t.height
  t.reconsider

/-- PORT_RESET. -/
def execPortReset (p : Port) (req : List Byte) (s : State) : Host.Outcome State Fault Refusal :=
  .next (s.transact p (.fixed 0) req (.portReset p req) (effectPortReset p req)).settle

/-- The supply after a PART_RESET (R160); its settings take their defaults in the same event (R158, Log 16). -/
def Supply.partReset (u : Supply) (scanning : Bool) : Supply :=
  let v := { u with recovery := false, cause := .none, windDown := false, riseDuration := Config.defaultRise,
                    parkDuration := Config.defaultPark, fallDuration := Config.defaultFall }
  match u.state with
  | .off => { v with riseTimer := none, parkTimer := none, fallTimer := none }
  | .rising => v.enterFalling
  | .on => if scanning then { v with windDown := true } else v.enterFalling
  | .falling | .tripped => v
  | .halted => if u.fallTimer.isSome then { v with state := .falling } else { v with state := .off }

/-- The frame-mark row after a PART_RESET (R147). -/
def Scanner.partReset (c : Scanner) : Scanner :=
  if c.scanning then { c with pendingMark := some 0 } else { c with markRow := 0, pendingMark := none }

/-- The Temperature Unit after a PART_RESET (R50). -/
def TempUnit.partReset : TempUnit :=
  { freshness := .absent, effective := none, band := none, staleTimer := none,
    hysteresis := Config.defaultHysteresis, staleDuration := Config.defaultStale }

/-- PART_RESET's effect (R180; R14, R38, R50, R53, R69, R92, R93, R106, R114, R127, R147, R160, R167). -/
def effectPartReset (p : Port) (_req : List Byte) (s : State) : State :=
  let t := s.endLanes fun _ => true
  let t := ((t.withQueue []).freeZones fun _ => true).withZoneDuration Config.defaultZone
  let t := t.withLimits Config.defaultResidueLimit Config.defaultWearLimit
  let t := t.withTemp TempUnit.partReset
  let t := match t.table.phase with
    | .loading _ _ => t.abortLoad
    | _ => t
  let t := t.withSupply (t.supply.partReset t.scan.scanning)
  let t := t.withScan t.scan.partReset
  let t := t.withLastGrant .survey
  let t := t.withPower { t.power with dozeDelay := Config.defaultDoze, resetWait := true }
  let t := t.mapPorts fun q => q.cleared t.width t.height
  let t := t.mapPort (otherPort p) fun q => { q with txn := q.txn.abandoned }
  (t.raiseBoth .partReset).reconsider

/-- PART_RESET. -/
def execPartReset (p : Port) (req : List Byte) (s : State) : Host.Outcome State Fault Refusal :=
  .next (s.transact p (.fixed 0) req (.partReset p req) (effectPartReset p req)).settle

end Sys2Proof.Machine
end

