-- ==== Sys2Proof/Machine/Geometry.lean ====
section
/-! DEFINITION. Panel geometry: SET_GEOMETRY (R67) and the end of its sweep (R68), at which the transactions held
meanwhile take effect (R61).
-/

namespace Sys2Proof.Machine

/-- A READ_PIXELS is under way on the port (R67). -/
def State.readingOn (s : State) (p : Port) : Bool :=
  match (s.port p).txn with
  | .reading _ => true
  | _ => false

/-- The conditions on which SET_GEOMETRY is taken (R67). -/
def State.geometryFree (s : State) (p : Port) : Bool :=
  s.allFree && s.queue.isEmpty && s.portA.stream.isEmpty && s.portB.stream.isEmpty && s.noZone &&
  !s.readingOn (otherPort p)

/-- SET_GEOMETRY's effect (R67, R144, R147); the range is tested before IN_USE (Log 37). -/
def effectSetGeometry (p : Port) (req : List Byte) (s : State) : State :=
  let w := reqWord req 0
  let h := reqWord req 2
  if w < Config.minWidth ∨ Config.maxWidth < w ∨ h < Config.minHeight ∨ Config.maxHeight < h then
    s.setResult p .badParam
  else if s.geometryFree p = false then s.setResult p .inUse
  else
    let t := (s.withGeometry w h).withPower { s.power with geometrySweep := true }
    (t.withScan { t.scan with markRow := min t.scan.markRow (h - 1), pendingMark := none }).setResult p .ok

/-- SET_GEOMETRY. -/
def execSetGeometry (p : Port) (req : List Byte) (s : State) : Host.Outcome State Fault Refusal :=
  .next (s.transact p (.fixed 4) req (.setGeometry p req) (effectSetGeometry p req)).settle

/-- The effect of a command that acts at the rise of its select, whole; what a held transaction brings about (R61). -/
def effectOf : Instr → State → State
  | .setWindow p r => effectSetWindow p r
  | .setFormat p r => effectSetFormat p r
  | .setOrientation p r => effectSetOrientation p r
  | .fillWindow p r => effectFillWindow p r
  | .submitUpdate p r => effectSubmitUpdate p r
  | .withdraw p r => effectWithdraw p r
  | .reserveZone p r => effectReserveZone p r
  | .releaseZone p r => effectReleaseZone p r
  | .reportTemperature p r => effectReportTemperature p r
  | .tableBegin p r => effectTableBegin p r
  | .tableData p r => effectTableData p r
  | .tableEnd p r => effectTableEnd p r
  | .tableAbort p r => effectTableAbort p r
  | .getTableInfo p r => effectGetTableInfo p r
  | .setGeometry p r => effectSetGeometry p r
  | .setLimits p r => effectSetLimits p r
  | .setTimers p r => effectSetTimers p r
  | .setFrameMark p r => effectSetFrameMark p r
  | .getEvents p r => effectGetEvents p r
  | .setEventEnable p r => effectSetEventEnable p r
  | .getDone p r => effectGetDone p r
  | .getResult p r => effectGetResult p r
  | .getStatus p r => effectGetStatus p r
  | .getScan p r => effectGetScan p r
  | .getPixel p r => effectGetPixel p r
  | .getId p r => effectGetId p r
  | .sleep p r => effectSleep p r
  | .portReset p r => effectPortReset p r
  | .partReset p r => effectPartReset p r
  | _ => id

/-- A held transaction is taken (R61, R62, R169). -/
def State.takeHeld (p : Port) (s : State) : Held → State
  | .command i => effectOf i s
  | .writeEnd r => s.setResult p r
  | .untaken => (s.mapPort p fun q => { q with consent := false }).refuseFrame p .stream

/-- The port's held transactions are taken, in the order of their select edges (R168), unless another sweep has begun
meanwhile (R61, R68). -/
def State.applyHeld (s : State) (p : Port) : State :=
  if s.power.geometrySweep then s
  else (s.port p).held.foldl (State.takeHeld p) (s.mapPort p fun q => { q with held := [] })

/-- A port's context fitted to the new geometry: orientation, mirror and format kept (R68). -/
def PortContext.fitted (c : PortContext) (w h : Nat) : PortContext :=
  { c with window := portArea c.orientation w h, cursor := some (0, 0) }

/-- What the sweep leaves (R13, R68, R53). -/
def State.sweptGeometry (s : State) : State :=
  let t := ((s.withImage []).withPixels []).withLastGrant .survey
  let t := t.mapPorts fun q => { q with ctx := q.ctx.fitted t.width t.height }
  t.withPower { t.power with geometrySweep := false }

/-- GEOMETRY_SWEEP_END (R68). -/
def execGeometrySweepEnd (s : State) : Host.Outcome State Fault Refusal :=
  if s.power.geometrySweep then .next ((s.sweptGeometry.applyHeld .a).applyHeld .b).settle else .next s

end Sys2Proof.Machine
end

