-- ==== Sys2Proof/Machine/Dispatch.lean ====
section
/-! DEFINITION. The dispatch: one arm per command, each one direct call of its meaning. -/

namespace Sys2Proof.Machine

/-- The effect of a command on everything but the queue of waiting commands. -/
def exec (i : Instr) (s : State) : Host.Outcome State Fault Refusal :=
  match i with
  | .powerOnReset resetN => Sys2Proof.Machine.execPowerOnReset resetN s
  | .initSweepEnd => Sys2Proof.Machine.execInitSweepEnd s
  | .selectFall p => Sys2Proof.Machine.execSelectFall p s
  | .wakingEnd => Sys2Proof.Machine.execWakingEnd s
  | .unknownCommand p taken => Sys2Proof.Machine.execUnknownCommand p taken s
  | .setWindow p req => Sys2Proof.Machine.execSetWindow p req s
  | .setFormat p req => Sys2Proof.Machine.execSetFormat p req s
  | .setOrientation p req => Sys2Proof.Machine.execSetOrientation p req s
  | .writePixels p ph => Sys2Proof.Machine.execWritePixels p ph s
  | .writeContinue p ph => Sys2Proof.Machine.execWriteContinue p ph s
  | .pixelDataByte p b => Sys2Proof.Machine.execPixelDataByte p b s
  | .pixelByteDiscarded p => Sys2Proof.Machine.execPixelByteDiscarded p s
  | .fillWindow p req => Sys2Proof.Machine.execFillWindow p req s
  | .readPixels p ph => Sys2Proof.Machine.execReadPixels p ph s
  | .readbackLevelRead p => Sys2Proof.Machine.execReadbackLevelRead p s
  | .readbackByte p => Sys2Proof.Machine.execReadbackByte p s
  | .submitUpdate p req => Sys2Proof.Machine.execSubmitUpdate p req s
  | .withdraw p req => Sys2Proof.Machine.execWithdraw p req s
  | .reserveZone p req => Sys2Proof.Machine.execReserveZone p req s
  | .releaseZone p req => Sys2Proof.Machine.execReleaseZone p req s
  | .reportTemperature p req => Sys2Proof.Machine.execReportTemperature p req s
  | .tableBegin p req => Sys2Proof.Machine.execTableBegin p req s
  | .tableData p req => Sys2Proof.Machine.execTableData p req s
  | .tableEnd p req => Sys2Proof.Machine.execTableEnd p req s
  | .tableAbort p req => Sys2Proof.Machine.execTableAbort p req s
  | .validationEnd => Sys2Proof.Machine.execValidationEnd s
  | .getTableInfo p req => Sys2Proof.Machine.execGetTableInfo p req s
  | .setGeometry p req => Sys2Proof.Machine.execSetGeometry p req s
  | .geometrySweepEnd => Sys2Proof.Machine.execGeometrySweepEnd s
  | .setLimits p req => Sys2Proof.Machine.execSetLimits p req s
  | .setTimers p req => Sys2Proof.Machine.execSetTimers p req s
  | .setFrameMark p req => Sys2Proof.Machine.execSetFrameMark p req s
  | .getEvents p req => Sys2Proof.Machine.execGetEvents p req s
  | .setEventEnable p req => Sys2Proof.Machine.execSetEventEnable p req s
  | .getDone p req => Sys2Proof.Machine.execGetDone p req s
  | .getResult p req => Sys2Proof.Machine.execGetResult p req s
  | .getStatus p req => Sys2Proof.Machine.execGetStatus p req s
  | .getScan p req => Sys2Proof.Machine.execGetScan p req s
  | .getPixel p req => Sys2Proof.Machine.execGetPixel p req s
  | .getId p req => Sys2Proof.Machine.execGetId p req s
  | .sleep p req => Sys2Proof.Machine.execSleep p req s
  | .portReset p req => Sys2Proof.Machine.execPortReset p req s
  | .partReset p req => Sys2Proof.Machine.execPartReset p req s
  | .drainPixelEntry p => Sys2Proof.Machine.execDrainPixelEntry p s
  | .drainFillPixel p => Sys2Proof.Machine.execDrainFillPixel p s
  | .drainSubmitEntry p => Sys2Proof.Machine.execDrainSubmitEntry p s
  | .surveyStart => Sys2Proof.Machine.execSurveyStart s
  | .surveyVisit part => Sys2Proof.Machine.execSurveyVisit part s
  | .surveyEnd => Sys2Proof.Machine.execSurveyEnd s
  | .scanStart => Sys2Proof.Machine.execScanStart s
  | .frameRow n => Sys2Proof.Machine.execFrameRow n s
  | .frameBoundary => Sys2Proof.Machine.execFrameBoundary s
  | .retireVisit => Sys2Proof.Machine.execRetireVisit s
  | .retireWalkEnd => Sys2Proof.Machine.execRetireWalkEnd s
  | .railGoodAsserted => Sys2Proof.Machine.execRailGoodAsserted s
  | .railLost => Sys2Proof.Machine.execRailLost s
  | .riseTimeout => Sys2Proof.Machine.execRiseTimeout s
  | .parkTimerExpiry => Sys2Proof.Machine.execParkTimerExpiry s
  | .fallTimerExpiry => Sys2Proof.Machine.execFallTimerExpiry s
  | .staleTimerExpiry => Sys2Proof.Machine.execStaleTimerExpiry s
  | .zoneLapse z => Sys2Proof.Machine.execZoneLapse z s
  | .dozeTimerExpiry => Sys2Proof.Machine.execDozeTimerExpiry s
  | .resetNRise => Sys2Proof.Machine.execResetNRise s
  | .discardedTransactionRise p => Sys2Proof.Machine.execDiscardedTransactionRise p s

end Sys2Proof.Machine
end

