-- ==== Sys2Proof/Safety.lean ====
section
/-! DEFINITION. What a sound state of the part is, as invariants that every step keeps, and the words in which the
statements are made: the end of a command's transaction, the walk of a window, the encoding of a table image.
-/

namespace Sys2Proof.Machine

/-! ## Words of the statements -/

/-- What data out has carried by the rise of a transaction of `n` bytes: one response byte for each, zero once the
response is exhausted, those already gone left out; the others last while READY is high, else before the zeros that
followed the mark (R61, R171; Log 6). -/
def State.sentOut (s : State) (p : Port) (n : Nat) : List Byte :=
  let q := s.port p
  let rest := ((q.response ++ List.replicate n 0).take n).drop q.outCount
  if s.ready p then q.dataOut ++ rest else q.dataOut.take q.outMark ++ rest ++ q.dataOut.drop q.outMark

/-- A port once a command's transaction of `n` bytes has ended with a result: select is high, the response has gone
out and its buffer is empty, the consent is cleared, a refusal has raised REFUSED (R164, R170, R171). -/
def State.ended (s : State) (p : Port) (n : Nat) (r : Result) : PortState :=
  let q := s.port p
  { q with txn := .closed, consent := false, response := [], result := r,
           dataOut := s.sentOut p n,
           flags := if 16 ≤ r.code.toNat then q.flags ||| 0x004 else q.flags }

/-- A command of the port takes effect at the rise of its select: its bytes were taken and no geometry sweep runs. -/
abbrev State.takes (s : State) (p : Port) : Prop :=
  (s.port p).txn = .opened true ∧ s.power.geometrySweep = false

/-- The end of a command's transaction of `n` bytes changes nothing else than its port. -/
def State.ends (s : State) (p : Port) (n : Nat) (r : Result) : State := s.setPort p (s.ended p n r)

/-- Four coordinates as sent (R182). -/
def coordinates (x0 y0 x1 y1 : Nat) : List Byte := bytesOf 2 x0 ++ bytesOf 2 y0 ++ bytesOf 2 x1 ++ bytesOf 2 y1

/-- The positions that `n` pixels take from a cursor, as far as the rectangle goes (R62). -/
def Rect.walk (r : Rect) : Option Pos → Nat → List Pos
  | some x, n + 1 => x :: Rect.walk r (r.nextPos x) n
  | _, _ => []

/-- The cursor after `n` pixels (R62). -/
def Rect.walked (r : Rect) : Option Pos → Nat → Option Pos
  | some x, n + 1 => Rect.walked r (r.nextPos x) n
  | c, _ => c

/-- The port, the request bytes, whether more bytes may follow, and the number of request bytes of a command that takes
effect at the rise of its select: exactly so many for a fixed command, at least so many for a query, which may carry
fill bytes, and for TABLE_DATA, which may carry any number (R168, R182). -/
def requestOf : Instr → Option (Port × List Byte × Bool × Nat)
  | .setWindow p r => some (p, r, false, 8)
  | .setFormat p r => some (p, r, false, 1)
  | .setOrientation p r => some (p, r, false, 2)
  | .fillWindow p r => some (p, r, false, 1)
  | .submitUpdate p r => some (p, r, false, 12)
  | .withdraw p r => some (p, r, false, 1)
  | .reserveZone p r => some (p, r, false, 9)
  | .releaseZone p r => some (p, r, false, 1)
  | .reportTemperature p r => some (p, r, false, 1)
  | .tableBegin p r => some (p, r, false, 0)
  | .tableData p r => some (p, r, true, 0)
  | .tableEnd p r => some (p, r, false, 0)
  | .tableAbort p r => some (p, r, false, 0)
  | .getTableInfo p r => some (p, r, true, 0)
  | .setGeometry p r => some (p, r, false, 4)
  | .setLimits p r => some (p, r, false, 3)
  | .setTimers p r => some (p, r, false, 12)
  | .setFrameMark p r => some (p, r, false, 2)
  | .getEvents p r => some (p, r, true, 0)
  | .setEventEnable p r => some (p, r, false, 2)
  | .getDone p r => some (p, r, true, 0)
  | .getResult p r => some (p, r, true, 0)
  | .getStatus p r => some (p, r, true, 0)
  | .getScan p r => some (p, r, true, 0)
  | .getPixel p r => some (p, r, true, 4)
  | .getId p r => some (p, r, true, 0)
  | .sleep p r => some (p, r, false, 0)
  | .portReset p r => some (p, r, false, 0)
  | .partReset p r => some (p, r, false, 0)
  | _ => none

/-- The port of a command that takes effect at the rise of its select. -/
def portOfCommand (i : Instr) : Option Port := (requestOf i).map Prod.fst

/-- What a reset does to a lane it ends (R14, R114, R127). -/
def endedLane (s : State) (L : Lane) : Lane :=
  match L.state with
  | .free => L
  | .pending => Lane.rest
  | .survey => { (match s.survey with | some w => L.decided w.mode | none => L) with
      report := false, state := .retiring, kind := some .release, outcome := some .withdrawn }
  | .armed => { L with report := false, state := .retiring, kind := some .release, outcome := some .withdrawn }
  | .running => { L with report := false, abort := true }
  | .retiring => { L with report := false }

/-- The record after one frame of a drive code: the residue step of R8, nothing else (R140). -/
def PixelRecord.stepped (r : PixelRecord) : Drive → PixelRecord
  | .hold => r
  | .pos => { r with residue := min 127 (r.residue + 1) }
  | .neg => { r with residue := max (-127) (r.residue - 1) }

/-- The step is clipped (R8). -/
def PixelRecord.clipped (r : PixelRecord) : Drive → Bool
  | .hold => false
  | .pos => decide (127 < r.residue + 1)
  | .neg => decide (r.residue - 1 < -127)

/-- How many pixels of a list a lane clips when the frame walk visits them (R8, R140). -/
def State.clipCount (s : State) (visited : List Pos) (l : LaneId) : Nat :=
  visited.countP fun x =>
    decide ((s.pixel x).lane = some l) && (s.pixel x).clipped (s.driveCode (s.pixel x))

/-! ## The table image, written from R186 -/

/-- The header's bytes. -/
def Header.image (h : Header) : List Byte :=
  [byteOf h.version, byteOf h.modeCount, byteOf h.bandCount, byteOf h.staleBand] ++ bytesOf 2 h.recipeCount ++
  bytesOf 4 h.length

/-- A band record's bytes. -/
def BandRecord.image (b : BandRecord) : List Byte := signedByte b.lower :: bytesOf 2 b.period

/-- A mode record's bytes. -/
def ModeRecord.image (m : ModeRecord) : List Byte :=
  [byteOf m.levels.count,
   byteOf ((if m.clearing then 1 else 0) + (if m.drivesUnchanged then 2 else 0) +
     (if m.acceptsUnknown then 4 else 0) + (if m.compensating then 8 else 0)),
   byteOf m.cost, (match m.promote with | none => 0xFF | some x => byteOf x)] ++ bytesOf 2 m.ratio

/-- A segment's byte. -/
def segmentImage (g : Drive × Nat) : Byte :=
  byteOf ((match g.1 with | .hold => 0 | .pos => 64 | .neg => 128) + g.2)

/-- A recipe's bytes. -/
def Recipe.image (r : Recipe) : List Byte := byteOf r.segments.length :: r.segments.map segmentImage

/-- The whole image of a table, in the section order of R186. -/
def Table.image (t : Table) : List Byte :=
  t.header.image ++ t.bands.flatMap BandRecord.image ++ t.modes.flatMap ModeRecord.image ++
  t.map.flatMap (bytesOf 2) ++ t.pool.flatMap Recipe.image

/-- A mode record within the values of R18 and R33. -/
structure ModeRecord.Legal (modes : List ModeRecord) (i : Nat) (m : ModeRecord) : Prop where
  cost : m.cost ≤ 7
  ratio : 1 ≤ m.ratio ∧ m.ratio ≤ 256
  promote : ∀ x, m.promote = some x → x ≠ i ∧ ∃ t, modes[x]? = some t ∧ t.clearing = true ∧
    t.acceptsUnknown = true ∧ m.levels.count ≤ t.levels.count

/-- A recipe within R19, with its length and net. -/
structure Recipe.Legal (r : Recipe) : Prop where
  count : r.segments.length ≤ 8
  frames : ∀ g ∈ r.segments, 1 ≤ g.2 ∧ g.2 ≤ 63
  length : r.length = (r.segments.map Prod.snd).sum ∧ r.length ≤ 255
  net : r.net = (r.segments.map fun g => g.1.sign * (g.2 : Int)).sum

/-- A header within the values of R16 and R31. -/
structure Header.Legal (h : Header) : Prop where
  version : h.version = 1
  modeCount : 1 ≤ h.modeCount ∧ h.modeCount ≤ 8
  bandCount : 1 ≤ h.bandCount ∧ h.bandCount ≤ 12
  staleBand : h.staleBand < h.bandCount
  recipeCount : 1 ≤ h.recipeCount ∧ h.recipeCount ≤ 1024
  length : 1 ≤ h.length ∧ h.length ≤ 65536

/-- Band records within the values of R17 and R32. -/
structure BandsLegal (bands : List BandRecord) : Prop where
  values : ∀ b ∈ bands, -128 ≤ b.lower ∧ b.lower ≤ 127 ∧ 100 ≤ b.period ∧ b.period ≤ 1300
  rising : (bands.tail.map BandRecord.lower).Pairwise (· < ·)

/-- Mode records within the values of R18 and R33. -/
def ModesLegal (modes : List ModeRecord) : Prop :=
  ∀ (i : Nat) (m : ModeRecord), modes[i]? = some m → m.Legal modes i

/-- The number of index map entries that the modes imply (R20). -/
def mapSize (bands : Nat) (modes : List ModeRecord) : Nat :=
  (modes.map fun m => bands * 17 * (m.levels.count * m.variants)).sum

/-- A table that R16 to R20 and R31 to R34 allow. -/
structure Table.Legal (t : Table) : Prop where
  header : t.header.Legal
  modeCount : t.header.modeCount = t.modes.length
  bandCount : t.header.bandCount = t.bands.length
  recipeCount : t.header.recipeCount = t.pool.length
  length : t.header.length = t.image.length
  bands : BandsLegal t.bands
  modes : ModesLegal t.modes
  mapLength : t.map.length = mapSize t.bands.length t.modes
  mapEntries : ∀ n ∈ t.map, n < t.pool.length
  pool : ∀ r ∈ t.pool, r.Legal
  unknownRows : ∀ (mode : Nat) (m : ModeRecord) (band : Nat) (dest : Level) (v : Variant),
    t.modes[mode]? = some m → band < t.bands.length → m.levels.holds dest = true →
    ∃ r, t.lookup mode band none dest v = some r ∧ 1 ≤ r.length

/-! ## Invariants -/

/-- A pixel record within R3 and R10. -/
structure PixelRecord.Legal (r : PixelRecord) : Prop where
  residue : -127 ≤ r.residue ∧ r.residue ≤ 127
  wear : r.wear ≤ 15
  free : r.lane = none → r.target = 0 ∧ r.variant = .n

/-- Both stores are in canonical form and every record is legal (R3, R10). -/
structure StoresSound (s : State) : Prop where
  form : Memory.wf s = true
  records : ∀ c ∈ s.pixels, c.2.Legal

/-- The lane lists and the engines agree with the lane states, and lanes with the scan and the supply (R94 to R97,
R116, R119, R122, R128, R136, R144, R146, R147, R150, R157). -/
structure LanesSound (s : State) : Prop where
  pending : ∀ l, l ∈ s.surveyList ↔ (s.lane l).state = .pending
  surveyed : ∀ l, s.survey.map Survey.lane = some l ↔ (s.lane l).state = .survey
  armed : ∀ l, l ∈ s.armingList ↔ (s.lane l).state = .armed
  retiring : ∀ l, l ∈ s.retireList ↔ (s.lane l).state = .retiring
  once : s.surveyList.Nodup ∧ s.armingList.Nodup ∧ s.retireList.Nodup
  walked : s.retire.map RetireWalk.lane = s.retireList.head?
  rest : ∀ l, (s.lane l).state = .free → s.lane l = Lane.rest
  scanning : s.scan.scanning = true ↔ ∃ l, (s.lane l).state = .running
  scanBand : ∀ l, (s.lane l).state = .running → (s.lane l).band = s.scan.band
  unstarted : ∀ l, (s.lane l).state ≠ .running → (s.lane l).state ≠ .retiring → (s.lane l).frameIndex = 0
  armedCount : ∀ l, (s.lane l).state = .armed → 0 < (s.lane l).frameCount
  runningIndex : ∀ l, (s.lane l).state = .running → (s.lane l).frameIndex < (s.lane l).frameCount
  retiredIndex : ∀ l, (s.lane l).state = .retiring → (s.lane l).frameIndex ≤ (s.lane l).frameCount
  retiredKind : ∀ l, (s.lane l).state = .retiring → (s.lane l).kind.isSome = true ∧ (s.lane l).outcome.isSome = true
  idleMark : s.scan.scanning = false → s.scan.pendingMark = none
  rails : s.scan.scanning = true → s.supply.state = .on ∧ s.supply.parkTimer = none
  demand : s.armingList ≠ [] → s.supply.state ≠ .off
  halted : s.supply.state = .halted → ∀ l, (s.lane l).state = .free ∨ (s.lane l).state = .retiring

/-- Streams, held transactions, done queues and the places of requests stay within their bounds (R59, R61, R72, R74,
R175). -/
structure QueuesSound (s : State) : Prop where
  stream : ∀ p, (s.port p).stream.length ≤ 64
  room : ∀ p, (s.port p).txn = .opened true → (s.port p).stream.length < 64
  held : ∀ p, (s.port p).held ≠ [] → s.power.geometrySweep = true ∧ (s.port p).txn ≠ .opened true
  heldCommand : ∀ p i, Held.command i ∈ (s.port p).held →
    portOfCommand i = some p ∧ (s.port p).stream.length < 64
  heldFirst : ∀ p i, Held.command i ∉ (s.port p).held.tail
  owner : ∀ p q, Entry.submit q ∈ (s.port p).stream → q.port = p
  done : ∀ p, (s.port p).done.length ≤ 16
  places : s.queue.length + (s.streamRequests .a).length + (s.streamRequests .b).length ≤ 24
  share : ∀ p, s.queue.countP (fun q => decide (q.port = p)) + (s.streamRequests p).length ≤ 16

/-- The tags of a port's requests: in its stream, in the queue, in lanes in use (R73). -/
def State.tagsOf (s : State) (p : Port) : List Nat :=
  (s.streamRequests p).map Request.tag ++ (s.queue.filter fun q => decide (q.port = p)).map Request.tag ++
  (laneIds.filter fun l => decide ((s.lane l).state ≠ .free) && decide ((s.lane l).owner = p)).map
    fun l => (s.lane l).tag

/-- No port has two requests with one tag (R73). -/
def TagsSound (s : State) : Prop := ∀ p, (s.tagsOf p).Nodup

/-- The rectangle is in order and inside the geometry (R70, R86). -/
structure Rect.Fits (r : Rect) (w h : Nat) : Prop where
  order : r.x0 ≤ r.x1 ∧ r.y0 ≤ r.y1
  inside : r.x1 < w ∧ r.y1 < h

/-- What a write-stream entry writes or submits lies inside the geometry (R59). -/
def Entry.Fits (w h : Nat) : Entry → Prop
  | .pixel x _ => x.1 < w ∧ x.2 < h
  | .fill r _ x => r.Fits w h ∧ r.has x = true
  | .submit q => q.rect.Fits w h

/-- The window and the cursor lie inside the port area (R55, R57). -/
structure PortContext.Fits (c : PortContext) (w h : Nat) : Prop where
  window : c.window.Fits (portWidth c.orientation w h) (portHeight c.orientation w h)
  cursor : ∀ x, c.cursor = some x → c.window.has x = true

/-- Everything that holds a place of the panel holds one of the geometry in force (R52, R55, R59, R67, R70, R86,
R136). While a geometry sweep runs, the contexts still stand as before it (R68). -/
structure GeometrySound (s : State) : Prop where
  width : 64 ≤ s.width ∧ s.width ≤ 2048
  height : 64 ≤ s.height ∧ s.height ≤ 1600
  contexts : s.power.geometrySweep = false → ∀ p, (s.port p).ctx.Fits s.width s.height
  entries : ∀ p, ∀ e ∈ (s.port p).stream, e.Fits s.width s.height
  requests : ∀ q ∈ s.queue, q.rect.Fits s.width s.height
  zones : ∀ z zone, s.zone z = some zone → zone.rect.Fits s.width s.height
  lanes : ∀ l, (s.lane l).rect.Fits s.width s.height
  mark : s.scan.markRow < s.height ∧ ∀ r, s.scan.pendingMark = some r → r < s.height

/-- The sweeps and SLEEP find the part at rest (R13, R67, R161, R165). -/
structure QuietSound (s : State) : Prop where
  sweep : s.power.state = .init ∨ s.power.geometrySweep = true →
    s.allFree = true ∧ s.queue = [] ∧ (∀ p, (s.port p).stream = []) ∧ s.noZone = true
  init : s.power.state = .init → s.power.geometrySweep = false ∧ s.supply.state = .off ∧
    ∀ p, (s.port p).txn = .closed ∨ (s.port p).txn = .discarded
  sleep : s.power.state = .sleep → s.portA.consent = true ∧ s.portB.consent = true ∧ s.allFree = true ∧
    s.supply.state = .off ∧ s.noZone = true ∧ s.quiet = true ∧ s.temp.staleTimer = none

/-- The Temperature Unit and the table agree (R24, R39). -/
structure TemperatureSound (s : State) : Prop where
  table : s.table.phase = .valid ↔ s.table.table.isSome = true
  absent : s.temp.freshness = .absent ↔ s.temp.effective = none
  range : ∀ x, s.temp.effective = some x → -40 ≤ x ∧ x ≤ 85
  noBand : s.table.phase ≠ .valid ∨ s.temp.freshness = .absent → s.temp.band = none
  band : ∀ t, s.table.table = some t → s.temp.freshness ≠ .absent →
    ∃ b, s.temp.band = some b ∧ b ≤ t.bands.tail.length
  timer : s.temp.staleTimer.isSome = true → s.temp.freshness = .fresh
  hysteresis : s.temp.hysteresis ≤ 5
  duration : 1 ≤ s.temp.staleDuration ∧ s.temp.staleDuration ≤ 600

/-- Panel order: row by row, each row left to right (R98, R129). -/
def panelBefore (x y : Pos) : Prop := x.2 < y.2 ∨ (x.2 = y.2 ∧ x.1 < y.1)

/-- Every claim names a lane that holds claims, inside its rectangle, behind the survey walk and not yet passed by the
retire walk; until the retire walk the claims number the lane's claimed count (R5, R6). Lanes of HOLD policy share no
pixel and meet no claim (R115), and once its survey has ended the lane of an UNKNOWN pixel has a final mode that accepts
unknown (R7); the other fields are what these two rest on: the order of the survey list, the table that stays VALID
while a lane is in use (R25), the modes that promote targets may have (R33), and what a survey under way has claimed. -/
structure ClaimsSound (s : State) : Prop where
  named : ∀ x l, x.1 < 2048 → (s.pixel x).lane = some l →
    (s.lane l).rect.has x = true ∧
    ((s.lane l).state = .survey ∨ (s.lane l).state = .armed ∨ (s.lane l).state = .running ∨
      (s.lane l).state = .retiring)
  surveyed : ∀ w, s.survey = some w → (∀ z, w.pos = some z → (s.lane w.lane).rect.has z = true) ∧
    ∀ x z, x.1 < 2048 → (s.pixel x).lane = some w.lane → w.pos = some z → panelBefore x z
  retired : ∀ w, s.retire = some w → (∀ z, w.pos = some z → (s.lane w.lane).rect.has z = true) ∧
    ∀ x, x.1 < 2048 → (s.pixel x).lane = some w.lane → ∃ z, w.pos = some z ∧ ¬ panelBefore x z
  counted : ∀ l, (s.lane l).state ≠ .free → s.retire.map RetireWalk.lane ≠ some l →
    (s.lane l).claimed = s.pixels.countP fun c => decide (c.2.lane = some l)
  holdApart : ∀ l k, l ≠ k → (s.lane l).state ≠ .free → (s.lane k).state ≠ .free → (s.lane l).policy = .hold →
    (s.lane k).policy = .hold → (s.lane l).rect.meets (s.lane k).rect = false
  holdBusy : ∀ l, (s.lane l).policy = .hold → (s.lane l).busySkipped = 0
  holdFirst : ∀ l k, l ≠ k → (s.lane l).state = .pending ∨ (s.lane l).state = .survey → (s.lane l).policy = .hold →
    (s.lane k).state ≠ .free → (s.lane k).state ≠ .pending → (s.lane l).rect.meets (s.lane k).rect = false
  holdOrder : s.surveyList.Pairwise fun k l =>
    (s.lane l).policy = .hold → (s.lane l).rect.meets (s.lane k).rect = false
  tableHeld : ∀ l, (s.lane l).state ≠ .free → s.table.phase = .valid
  promoteTargets : ∀ (t : Table) (m : ModeRecord) (x : Nat), s.table.table = some t → m ∈ t.modes → m.promote = some x →
    (s.modeRecord x).acceptsUnknown = true
  surveyMode : ∀ w, s.survey = some w → w.mode = s.modeRecord (s.lane w.lane).requestedMode
  unknownSurveyed : ∀ w x, s.survey = some w → x.1 < 2048 → (s.pixel x).lane = some w.lane → (s.pixel x).shown = none →
    0 < (s.lane w.lane).unknownClaimed ∧ (w.mode.acceptsUnknown = true ∨ w.mode.promote ≠ none)
  unknownAccepted : ∀ x l, x.1 < 2048 → (s.pixel x).lane = some l → (s.pixel x).shown = none →
    (s.lane l).state ≠ .survey → (s.modeRecord (s.lane l).finalMode).acceptsUnknown = true

/-- A sound state: every invariant at once. -/
structure Sound (s : State) : Prop where
  stores : StoresSound s
  lanes : LanesSound s
  queues : QueuesSound s
  tags : TagsSound s
  geometry : GeometrySound s
  quiet : QuietSound s
  temperature : TemperatureSound s
  claims : ClaimsSound s

end Sys2Proof.Machine
end

