-- ==== Sys2Proof/Certificates/Slice0/Obligations.lean ====
section
/-! DEFINITION. The statements about the part. Equations give the whole next state, so that whatever they do not name is
unchanged; `State.settle` is what every event brings about at the Power Controller and at READY once its own effect is
made, and `Obligations.SettleJudgesPower` says all that it can do.
-/

open Sys2Proof Sys2Proof.Machine

/-! ## The queue, reset and power -/

/-- The block takes the command at the front of its queue (Log 1) and idles on an empty one (Log 2). -/
def Obligations.StepRunsFrontCommand : Prop :=
  ∀ (c : Instr) (rest : List Instr) (s : State),
    (s.pending = c :: rest → step s = exec c (s.withPending rest)) ∧ (s.pending = [] → step s = .next s)

/-- No command stops the part, and none touches the queue (Log 34). -/
def Obligations.EveryCommandCompletes : Prop :=
  ∀ (c : Instr) (s : State), ∃ t, exec c s = .next t ∧ t.pending = s.pending

/-- The values that the reset tables give for power-on reset (R38, R50, R69, R92, R93, R114, R135, R147, R160, R161,
R167, R170 to R175), and POWER_ON_RESET, which brings them back but for the input pins and the queue and abandons a
transaction under way (R161). -/
def Obligations.PowerOnReset : Prop :=
  (let s := State.reset
  s.width = 1448 ∧ s.height = 1072 ∧ s.lastGrant = .survey ∧
  (∀ p, (s.port p).ctx = ⟨.rot0, false, ⟨0, 0, 1447, 1071⟩, some (0, 0), .p4⟩ ∧ (s.port p).stream = [] ∧
    (s.port p).result = .ok ∧ (s.port p).response = [] ∧ (s.port p).flags = 0 ∧ (s.port p).enables = 0x061 ∧
    (s.port p).done = [] ∧ (s.port p).consent = false ∧ (s.port p).held = []) ∧
  s.table = ⟨.empty, [], 0, none⟩ ∧ s.temp = ⟨.absent, none, none, none, 1, 60⟩ ∧
  s.queue = [] ∧ (∀ z, s.zone z = none) ∧ s.zoneDuration = 1500 ∧ (∀ l, s.lane l = Lane.rest) ∧
  s.surveyList = [] ∧ s.survey = none ∧ s.residueLimit = 64 ∧ s.wearLimit = 12 ∧
  s.armingList = [] ∧ s.retireList = [] ∧ s.retire = none ∧
  s.scan.scanning = false ∧ s.scan.band = none ∧ s.scan.period = none ∧ s.scan.row = none ∧ s.scan.counter = 0 ∧
  s.scan.markRow = 0 ∧ s.scan.pendingMark = none ∧
  s.supply.state = .off ∧ s.supply.riseTimer = none ∧ s.supply.parkTimer = none ∧ s.supply.fallTimer = none ∧
  s.supply.recovery = false ∧ s.supply.cause = .none ∧ s.supply.windDown = false ∧ s.supply.riseDuration = 30 ∧
  s.supply.parkDuration = 800 ∧ s.supply.fallDuration = 15 ∧
  s.power.state = .init ∧ s.power.dozeTimer = none ∧ s.power.dozeDelay = 50 ∧ s.pending = []) ∧
  (∀ (r : Bool) (s : State), exec (.powerOnReset r) s = .next
    { State.reset with
      power := { State.reset.power with resetN := r }
      supply := { State.reset.supply with railGood := s.supply.railGood }
      portA := { State.reset.portA with txn := if s.portA.txn = .closed then .closed else .discarded }
      portB := { State.reset.portB with txn := if s.portB.txn = .closed then .closed else .discarded }
      pending := s.pending })

/-- RESET_N_RISE lets the init sweep run; its end sweeps both stores and enters RUN (R13, R68, R161). -/
def Obligations.StartUp : Prop :=
  ∀ s : State, s.power.state = .init →
    exec .resetNRise s = .next (s.withPower { s.power with resetN := true }) ∧
    (s.power.resetN = true → exec .initSweepEnd s = .next
      (((((s.withImage []).withPixels []).withLastGrant .survey).withPower { s.power with state := .run }).settle)) ∧
    (s.power.resetN = false → exec .initSweepEnd s = .next s) ∧
    ∀ x, (s.withImage []).level x = 15 ∧ (s.withPixels []).pixel x = ⟨none, none, 0, .n, 0, 0⟩

/-- What follows every event: the wait after a PART_RESET ends when every lane is FREE (R180), a transaction notes
READY (Log 5), the doze timer and SLEEP are judged on the quiet conditions (R162, R165); nothing
else changes. -/
def Obligations.SettleJudgesPower : Prop :=
  ∀ s : State,
    let quiet : Prop := s.supply.state = .off ∧ s.scan.scanning = false ∧ (∀ l, (s.lane l).state = .free) ∧
      s.queue = [] ∧ (∀ p, (s.port p).stream = []) ∧ (∀ o v, s.table.phase ≠ .loading o v) ∧
      s.power.geometrySweep = false ∧ ∀ p, (s.port p).txn = .closed
    let agreed : Prop := (∀ p, (s.port p).consent = true) ∧ ∀ z, s.zone z = none
    ∃ pw ta tb, ∃ asleep : Bool,
      s.settle = (((s.withPower pw).withTemp
        { s.temp with staleTimer := if asleep then none else s.temp.staleTimer }).setPort .a
          { s.portA with txn := ta }).setPort .b { s.portB with txn := tb } ∧
      (s.portA.txn ≠ .opened false → ta = s.portA.txn) ∧
      (s.portA.txn = .opened false → ta = .opened (s.settle.ready .a)) ∧
      (s.portB.txn ≠ .opened false → tb = s.portB.txn) ∧
      (s.portB.txn = .opened false → tb = .opened (s.settle.ready .b)) ∧
      (asleep = true ↔ (s.power.state = .run ∨ s.power.state = .doze) ∧ quiet ∧ agreed) ∧
      pw.state = (if asleep then .sleep else s.power.state) ∧
      (asleep = true → pw.dozeTimer = none) ∧
      (s.power.state = .run → quiet → asleep = false →
        pw.dozeTimer = some (s.power.dozeTimer.getD s.power.dozeDelay)) ∧
      (s.power.state = .run → ¬ quiet → pw.dozeTimer = none) ∧
      (s.power.state ≠ .run → asleep = false → pw.dozeTimer = s.power.dozeTimer) ∧
      pw.dozeDelay = s.power.dozeDelay ∧ pw.resetN = s.power.resetN ∧ pw.geometrySweep = s.power.geometrySweep ∧
      (pw.resetWait = true ↔ s.power.resetWait = true ∧ ∃ l, (s.lane l).state ≠ .free)

/-- A select that is high falls: in RUN and DOZE the transaction begins and the part is in RUN, in INIT it will be
discarded, in WAKING its bytes meet READY low, in SLEEP it is the wake (R161 to R163, R166, R49). -/
def Obligations.SelectFall : Prop :=
  ∀ (p : Port) (s : State), (s.port p).txn = .closed →
    let q := { s.port p with dataOut := [], outCount := 0, outMark := 0 }
    let stale : BitVec 12 := if s.temp.freshness = .fresh then 0x080 else 0
    (s.power.state = .run ∨ s.power.state = .doze → exec (.selectFall p) s = .next
      (((s.setPort p { q with txn := .opened (s.ready p) }).withPower
        { s.power with state := .run, dozeTimer := none }).settle)) ∧
    (s.power.state = .waking → exec (.selectFall p) s = .next
      (((s.setPort p { q with txn := .opened false }).withPower { s.power with dozeTimer := none }).settle)) ∧
    (s.power.state = .init → exec (.selectFall p) s = .next ((s.setPort p { q with txn := .discarded }).settle)) ∧
    (s.power.state = .sleep → exec (.selectFall p) s = .next
      (((((s.withPower { s.power with state := .waking, dozeTimer := none }).withTemp
        (if s.temp.freshness = .fresh then { s.temp with freshness := .stale, staleTimer := none } else s.temp)).setPort
          p { q with txn := .discarded, consent := false, result := .woke,
                     flags := q.flags ||| 0x400 ||| stale }).setPort
          (otherPort p) { s.port (otherPort p) with consent := false,
                                                    flags := (s.port (otherPort p)).flags ||| stale }).settle))

/-- WAKING ends in RUN, the doze timer's expiry takes the part from RUN to DOZE and of its own changes nothing else
(R162, R163, R166), and SLEEP sets the port's consent with result OK, entering SLEEP at once when that completes the
agreement (R164, R165); what the scanner holds stays, and where the lanes are sound no frame-mark row is pending in
SLEEP (R147; Log 15). -/
def Obligations.SleepAndDoze : Prop :=
  (∀ s : State,
    (s.power.state = .waking → exec .wakingEnd s = .next ((s.withPower { s.power with state := .run }).settle)) ∧
    (s.power.state = .run → s.power.dozeTimer.isSome = true → exec .dozeTimerExpiry s = .next
      ((s.withPower { s.power with state := .doze, dozeTimer := none }).settle))) ∧
  (∀ (p : Port) (s : State), s.takes p →
    let u := s.setPort p { s.ended p 1 .ok with consent := true }
    exec (.sleep p []) s = .next u.settle ∧
    (s.power.state = .run → u.quiet = true → (s.port (otherPort p)).consent = true → (∀ z, s.zone z = none) →
      u.settle.power.state = .sleep ∧ u.settle.temp.staleTimer = none ∧ u.settle.power.dozeTimer = none ∧
      u.settle.scan = s.scan ∧ (LanesSound s → u.settle.scan.pendingMark = none)))

/-! ## The command link -/

/-- The frame of a link command and the command of a frame agree (R182). -/
def Obligations.FrameRoundTrip : Prop :=
  (∀ (i : Instr) (p : Port) (bytes : List Byte), i.wellFormed = true → frameOf i = some (p, bytes) →
    commandOfFrame p bytes = i) ∧
  (∀ (p : Port) (bytes : List Byte), bytes.head? ∉ [some 0x04, some 0x05, some 0x07] →
    frameOf (commandOfFrame p bytes) = some (p, bytes)) ∧
  ∀ (p : Port) (bytes : List Byte), (commandOfFrame p bytes).wellFormed = true

/-- The result codes (R183). -/
def Obligations.ResultCodes : Prop :=
  [Result.ok, .clamped, .overrun, .lostData, .woke].map Result.code = [0x00, 0x01, 0x02, 0x03, 0x04] ∧
  [Result.badFrame, .badParam, .duplicateTag, .queueFull, .halted, .unknownTag, .tooLate, .notOwner, .inUse,
    .loadInProgress, .notLoading, .tooLarge, .aborted].map Result.code =
    [0x10, 0x11, 0x12, 0x13, 0x14, 0x15, 0x16, 0x17, 0x18, 0x19, 0x1A, 0x1B, 0x1C] ∧
  [Result.badHeader, .sizeMismatch, .badBands, .badModeRecord, .badRecipe, .badMap, .unknownRowEmpty].map Result.code =
    [0x20, 0x21, 0x22, 0x23, 0x24, 0x25, 0x26]

/-- A transaction of the wrong length, of an unknown code or with no byte taken is refused BAD_FRAME and changes
nothing but its port; a query so refused answers its first byte alone (R169, R171). With no byte taken it is refused in
its turn, behind what its port holds while a geometry sweep runs (R168, Log 21), and the bytes that its row clocks carry
zero out (R61). -/
def Obligations.WrongFrameRefused : Prop :=
  let untaken := fun (s : State) (p : Port) (n : Nat) =>
    let q := { s.port p with txn := .closed, consent := false, dataOut := (s.port p).dataOut ++ List.replicate n 0 }
    if s.power.geometrySweep = true ∧ q.held ≠ [] then s.setPort p { q with held := q.held ++ [.untaken] }
    else s.setPort p { q with result := .badFrame, flags := q.flags ||| 0x004 }
  (∀ (i : Instr) (p : Port) (req : List Byte) (more : Bool) (n : Nat) (s : State),
    requestOf i = some (p, req, more, n) → (s.port p).txn = .opened true →
    (if more then req.length < n else req.length ≠ n) →
    exec i s = .next ((s.setPort p
      { s.ended p (req.length + 1) .badFrame with
        response := if more then [(s.port p).result.code] else [] }).settle)) ∧
  (∀ (i : Instr) (p : Port) (req : List Byte) (more : Bool) (n : Nat) (s : State),
    requestOf i = some (p, req, more, n) → (s.port p).txn = .opened false →
    exec i s = .next ((untaken s p (req.length + 1)).settle)) ∧
  (∀ (i : Instr) (p : Port) (heard : Bool) (s : State),
    i ∈ [.writePixels p .rise, .writeContinue p .rise, .readPixels p .rise] → (s.port p).txn = .opened heard →
    exec i s = .next ((untaken s p 0).settle)) ∧
  (∀ (p : Port) (taken : List Byte) (s : State), (s.port p).txn = .opened true → taken ≠ [] →
    namesNoCommand taken = true →
    exec (.unknownCommand p taken) s = .next ((s.ends p taken.length .badFrame).settle)) ∧
  (∀ (p : Port) (taken : List Byte) (heard : Bool) (s : State), (s.port p).txn = .opened heard →
    taken = [] ∨ (heard = false ∧ namesNoCommand taken = true) →
    exec (.unknownCommand p taken) s = .next ((untaken s p taken.length).settle))

/-- A command whose transaction ends during a geometry sweep is held, its rise clearing the port's consent unless it is
SLEEP (R61, R164); one of a discarded transaction has no effect beyond its select, and every byte clocked in it carries
zero out (Log 39); one whose select is high takes the falling edge first (R69, R161, R166, R168; Log 4). -/
def Obligations.TransactionsOutOfTurn : Prop :=
  (∀ (i : Instr) (p : Port) (req : List Byte) (more : Bool) (n : Nat) (s : State),
    requestOf i = some (p, req, more, n) → (s.port p).txn = .opened true → s.power.geometrySweep = true →
    (if more then n ≤ req.length else req.length = n) →
    exec i s = .next ((s.setPort p
      { s.port p with txn := .closed, response := [], held := (s.port p).held ++ [.command i]
                      consent := match i with | .sleep _ _ => (s.port p).consent | _ => false
                      dataOut := s.sentOut p (req.length + 1) }).settle)) ∧
  (∀ (p : Port) (s : State), (s.port p).txn = .discarded →
    let zeros := fun n => List.replicate n (0 : Byte)
    let risen := fun n => .next ((s.setPort p
      { s.port p with txn := .closed, dataOut := (s.port p).dataOut ++ zeros n }).settle)
    (∀ i req more n, requestOf i = some (p, req, more, n) → exec i s = risen (req.length + 1)) ∧
    (∀ taken, namesNoCommand taken = true → exec (.unknownCommand p taken) s = risen taken.length) ∧
    (∀ i ∈ [.discardedTransactionRise p, .writePixels p .rise, .writeContinue p .rise, .readPixels p .rise],
      exec i s = risen 0) ∧
    ∀ (i : Instr) (b : Byte), i ∈ [.writePixels p .code, .writeContinue p .code, .readPixels p .code,
      .pixelDataByte p b, .pixelByteDiscarded p, .readbackByte p] →
      exec i s = .next (s.setPort p { s.port p with dataOut := (s.port p).dataOut ++ zeros 1 })) ∧
  (∀ (i : Instr) (p : Port) (s : State), portOfCommand i = some p → (s.port p).txn = .closed →
    ∃ u, exec (.selectFall p) s = .next u ∧ exec i s = exec i u)

/-! ## Port contexts and pixels -/

/-- The pixels of a data byte in each format, and readback packing (R184, with the levels of R62). -/
def Obligations.PixelPacking : Prop :=
  ∀ b : Byte,
    (unpackByte .p1 b).map Fin.val = (List.range 8).map (fun i => if b.getLsbD (7 - i) then 15 else 0) ∧
    (unpackByte .p2 b).map Fin.val = (List.range 4).map (fun i => (b.extractLsb' (6 - 2 * i) 2).toNat * 5) ∧
    (unpackByte .p4 b).map Fin.val = [(b.extractLsb' 4 4).toNat, (b.extractLsb' 0 4).toNat] ∧
    packLevels (unpackByte .p4 b) = b ∧ ∀ f, (unpackByte f b).length = f.perByte

/-- SET_WINDOW (R57). -/
def Obligations.SetWindow : Prop :=
  ∀ (p : Port) (s : State) (x0 y0 x1 y1 : Nat), s.takes p → x0 < 65536 → y0 < 65536 → x1 < 65536 → y1 < 65536 →
    let c := (s.port p).ctx
    let right := portWidth c.orientation s.width s.height - 1
    let bottom := portHeight c.orientation s.width s.height - 1
    let r : Rect := ⟨min x0 right, min y0 bottom, min x1 right, min y1 bottom⟩
    (¬ (x0 ≤ x1 ∧ y0 ≤ y1) → exec (.setWindow p (coordinates x0 y0 x1 y1)) s =
      .next ((s.ends p 9 .badParam).settle)) ∧
    (x0 ≤ x1 ∧ y0 ≤ y1 → exec (.setWindow p (coordinates x0 y0 x1 y1)) s = .next ((s.setPort p
      { s.ended p 9 (if x0 ≤ right ∧ y0 ≤ bottom ∧ x1 ≤ right ∧ y1 ≤ bottom then .ok else .clamped) with
        ctx := { c with window := r, cursor := some (r.x0, r.y0) } }).settle) ∧
      (1 ≤ s.width → 1 ≤ s.height → r.x0 ≤ r.x1 ∧ r.y0 ≤ r.y1 ∧
        r.x1 < portWidth c.orientation s.width s.height ∧ r.y1 < portHeight c.orientation s.width s.height))

/-- SET_FORMAT and SET_ORIENTATION (R58, R182). -/
def Obligations.SetFormatAndOrientation : Prop :=
  ∀ (p : Port) (s : State), s.takes p →
    let c := (s.port p).ctx
    let formatted := fun f => (s.setPort p { s.ended p 2 .ok with ctx := { c with format := f } }).settle
    let oriented := fun o m => (s.setPort p { s.ended p 3 .ok with ctx :=
      { c with orientation := o, mirror := m, cursor := some (0, 0),
               window := ⟨0, 0, portWidth o s.width s.height - 1, portHeight o s.width s.height - 1⟩ } }).settle
    exec (.setFormat p [0]) s = .next (formatted .p1) ∧ exec (.setFormat p [1]) s = .next (formatted .p2) ∧
    exec (.setFormat p [2]) s = .next (formatted .p4) ∧
    (∀ b : Byte, 2 < b.toNat → exec (.setFormat p [b]) s = .next ((s.ends p 2 .badParam).settle)) ∧
    (∀ m : Bool,
      let mb : Byte := if m then 1 else 0
      exec (.setOrientation p [0, mb]) s = .next (oriented .rot0 m) ∧
      exec (.setOrientation p [1, mb]) s = .next (oriented .rot90 m) ∧
      exec (.setOrientation p [2, mb]) s = .next (oriented .rot180 m) ∧
      exec (.setOrientation p [3, mb]) s = .next (oriented .rot270 m)) ∧
    ∀ o m : Byte, 3 < o.toNat ∨ 1 < m.toNat →
      exec (.setOrientation p [o, m]) s = .next ((s.ends p 3 .badParam).settle)

/-- The mapping from port to panel positions: its formula, one to one from the port area onto the panel, and the
rectangle of a rectangle (R56). -/
def Obligations.PortMapping : Prop :=
  ∀ (c : PortContext) (w h : Nat), 1 ≤ w → 1 ≤ h →
    let pw := portWidth c.orientation w h
    let ph := portHeight c.orientation w h
    let inArea := fun x : Pos => x.1 < pw ∧ x.2 < ph
    (∀ x, inArea x →
      let a := if c.mirror then pw - 1 - x.1 else x.1
      toPanel c w h x = match c.orientation with
        | .rot0 => (a, x.2)
        | .rot90 => (w - 1 - x.2, a)
        | .rot180 => (w - 1 - a, h - 1 - x.2)
        | .rot270 => (x.2, h - 1 - a)) ∧
    (∀ x, inArea x → (toPanel c w h x).1 < w ∧ (toPanel c w h x).2 < h) ∧
    (∀ x y, inArea x → inArea y → toPanel c w h x = toPanel c w h y → x = y) ∧
    (∀ z : Pos, z.1 < w → z.2 < h → ∃ x, inArea x ∧ toPanel c w h x = z) ∧
    ∀ r : Rect, r.Fits pw ph →
      ∀ z, (rectToPanel c w h r).has z = true ↔ ∃ x, r.has x = true ∧ toPanel c w h x = z

/-- When READY is high (R61; R27, R68, R161, R166, R180); the command byte of a pixel write or of READ_PIXELS, taken
while READY is high; a byte of a command not known yet, with zero out and no effect while READY is low and with its
response byte out while it is high (R61, R171; Log 6); and the rise of its select: the result, which is no refusal (R61
to R63, R66, R168); a pixel write that ends during a geometry sweep with all its bytes taken is held (R61, Log 22). -/
def Obligations.PixelCommand : Prop :=
  (∀ (p : Port) (s : State),
    let q := s.port p
    s.ready p = true ↔ s.power.state ≠ .init ∧ s.power.state ≠ .waking ∧ s.power.geometrySweep = false ∧
      s.power.resetWait = false ∧ s.table.phase ≠ .loading p true ∧
      (∀ lost beyond, q.txn = .writing lost beyond → q.ctx.cursor = none ∨
        q.stream.length + (match q.ctx.format with | .p1 => 8 | .p2 => 4 | .p4 => 2) ≤ 64) ∧
      (∀ r, q.txn = .reading r → q.stream = [] ∧ (r.dummySent = false ∨ r.pos = none ∨ 2 ≤ r.granted.length)) ∧
      ((∀ lost beyond, q.txn ≠ .writing lost beyond) → (∀ r, q.txn ≠ .reading r) → q.stream.length < 64)) ∧
  (∀ (p : Port) (s : State) (heard : Bool), (s.port p).txn = .opened heard →
    let q := { s.port p with dataOut := (s.port p).dataOut ++ [(s.port p).response[(s.port p).outCount]?.getD 0]
                             outCount := (s.port p).outCount + 1 }
    let origin : Pos := (q.ctx.window.x0, q.ctx.window.y0)
    (s.ready p = true →
      exec (.writePixels p .code) s = .next ((s.setPort p
        { q with txn := .writing false false, ctx := { q.ctx with cursor := some origin } }).settle) ∧
      exec (.writeContinue p .code) s = .next ((s.setPort p { q with txn := .writing false false }).settle) ∧
      exec (.readPixels p .code) s = .next ((s.setPort p
        { q with txn := .reading { pos := some origin, granted := [], dummySent := false, beyond := false }
        }).settle) ∧
      (heard = true → exec (.readbackByte p) s = .next (s.setPort p { q with outMark := q.dataOut.length }))) ∧
    (s.ready p = false → ∀ (i : Instr) (b : Byte),
      i ∈ [.writePixels p .code, .writeContinue p .code, .readPixels p .code, .pixelDataByte p b, .pixelByteDiscarded p,
        .readbackByte p] →
      exec i s = .next (s.setPort p
        { s.port p with dataOut := (s.port p).dataOut ++ [0]
                        outMark := if heard then (s.port p).outMark else (s.port p).dataOut.length + 1 }))) ∧
  (∀ (p : Port) (s : State),
    let q := { s.port p with txn := .closed, consent := false, response := [] }
    (∀ lost beyond : Bool, (s.port p).txn = .writing lost beyond →
      let r : Result := if lost then .lostData else if beyond then .overrun else .ok
      let t := if s.power.geometrySweep = true ∧ lost = false then
        s.setPort p { q with held := q.held ++ [.writeEnd r] }
        else s.setPort p { q with result := r }
      exec (.writePixels p .rise) s = .next t.settle ∧ exec (.writeContinue p .rise) s = .next t.settle) ∧
    ∀ r : Readback, (s.port p).txn = .reading r →
      exec (.readPixels p .rise) s = .next ((s.setPort p
        { q with result := if r.beyond then .overrun else .ok }).settle))

/-- A data byte of a pixel write: taken while READY is high, its pixels join the stream from the cursor on and those
past the window's end are ignored with OVERRUN; while READY is low it is discarded whole with LOST_DATA (R62 to
R64). -/
def Obligations.PixelDataByte : Prop :=
  ∀ (p : Port) (s : State) (b : Byte) (lost beyond : Bool), (s.port p).txn = .writing lost beyond →
    let q := s.port p
    let levels := unpackByte q.ctx.format b
    let places := q.ctx.window.walk q.ctx.cursor levels.length
    let past : Bool := decide (places.length < levels.length)
    let discarded := s.setPort p
      { q with txn := .writing true beyond, dataOut := q.dataOut ++ [0], flags := q.flags ||| 0x010 }
    (s.ready p = true → exec (.pixelDataByte p b) s = .next ((s.setPort p
      { q with
        txn := .writing lost (beyond || past)
        stream := q.stream ++ List.zipWith (fun x v => Entry.pixel (toPanel q.ctx s.width s.height x) v) places levels
        ctx := { q.ctx with cursor := q.ctx.window.walked q.ctx.cursor levels.length }
        flags := if past then q.flags ||| 0x008 else q.flags
        dataOut := q.dataOut ++ [q.response[q.outCount]?.getD 0]
        outCount := q.outCount + 1 }).settle)) ∧
    (s.ready p = false →
      exec (.pixelDataByte p b) s = .next discarded.settle ∧
      exec (.pixelByteDiscarded p) s = .next discarded.settle)

/-- FILL_WINDOW: a fill entry of the window's panel rectangle joins the tail; a level above 15 is refused (R65). -/
def Obligations.FillWindow : Prop :=
  ∀ (p : Port) (s : State) (b : Byte), s.takes p →
    let q := s.port p
    let r := rectToPanel q.ctx s.width s.height q.ctx.window
    (∀ v : Level, b.toNat = v.val → exec (.fillWindow p [b]) s = .next ((s.setPort p
      { s.ended p 2 .ok with stream := q.stream ++ [.fill r v (r.x0, r.y0)] }).settle)) ∧
    (15 < b.toNat → exec (.fillWindow p [b]) s = .next ((s.ends p 2 .badParam).settle))

/-- Readback: a level is granted in its turn, at the panel position of the read position; the dummy byte, the bytes of
two levels, the odd last one and the bytes past the end go out while READY is high, zero while it is low (R66, R61). -/
def Obligations.ReadbackBytes : Prop :=
  ∀ (p : Port) (s : State) (r : Readback), (s.port p).txn = .reading r →
    let q := s.port p
    let out := fun (v : Byte) (r' : Readback) => { q with dataOut := q.dataOut ++ [v], txn := .reading r' }
    (∀ x, q.stream = [] → r.pos = some x → r.granted.length < 2 → s.turn = some (requesterOf p) →
      exec (.readbackLevelRead p) s = .next (((s.withLastGrant (requesterOf p)).setPort p
        { q with txn := .reading { r with granted := r.granted ++ [s.level (toPanel q.ctx s.width s.height x)]
                                          pos := q.ctx.window.nextPos x } }).settle)) ∧
    (s.ready p = true → r.dummySent = false →
      exec (.readbackByte p) s = .next ((s.setPort p (out 0 { r with dummySent := true })).settle)) ∧
    (∀ a b : Level, s.ready p = true → r.dummySent = true → r.granted = [a, b] →
      exec (.readbackByte p) s =
        .next ((s.setPort p (out (byteOf (a.val * 16 + b.val)) { r with granted := [] })).settle)) ∧
    (∀ a : Level, s.ready p = true → r.dummySent = true → r.granted = [a] →
      exec (.readbackByte p) s = .next ((s.setPort p (out (byteOf (a.val * 16)) { r with granted := [] })).settle)) ∧
    (s.ready p = true → r.dummySent = true → r.granted = [] → r.pos = none →
      exec (.readbackByte p) s = .next ((s.setPort p
        { out 0 { r with beyond := true } with flags := q.flags ||| 0x008 }).settle)) ∧
    (s.ready p = false → exec (.readbackByte p) s = .next (s.setPort p (out 0 r)))

/-! ## Streams and the arbiter -/

/-- A pixel entry and each pixel of a fill, granted in turn, write one level of the Image Store and leave every other
as it was (R52, R60). -/
def Obligations.DrainsWriteImage : Prop :=
  ∀ (p : Port) (s : State) (x : Pos) (v : Level) (rest : List Entry), s.turn = some (requesterOf p) →
    Store.wf (15 : Level) s.image = true → x.1 < 2048 →
    ∃ img, Store.wf (15 : Level) img = true ∧ (s.withImage img).level x = v ∧
      (∀ y : Pos, y.1 < 2048 → y ≠ x → (s.withImage img).level y = s.level y) ∧
      let after := fun stream => (((s.withImage img).withLastGrant (requesterOf p)).setPort p
        { s.port p with stream := stream }).settle
      ((s.port p).stream = .pixel x v :: rest → exec (.drainPixelEntry p) s = .next (after rest)) ∧
      ∀ r : Rect, (s.port p).stream = .fill r v x :: rest → exec (.drainFillPixel p) s = .next (after
        (if x.1 < r.x1 then .fill r v (x.1 + 1, x.2) :: rest
          else if x.2 < r.y1 then .fill r v (r.x0, x.2 + 1) :: rest else rest))

/-- A submit entry at the head passes to the queue, or ends BAD_MODE with its done record (R60, R75, R83). -/
def Obligations.DrainSubmitEntry : Prop :=
  ∀ (p : Port) (s : State) (q : Request) (rest : List Entry), (s.port p).stream = .submit q :: rest →
    let u := s.setPort p { s.port p with stream := rest }
    (∀ t, s.table.phase = .valid → s.table.table = some t → t.header.modeCount ≤ q.mode →
      exec (.drainSubmitEntry p) s = .next ((u.appendDone q.port
        ⟨q.tag, .badMode, q.mode, q.mode, false, false, none⟩).settle)) ∧
    (s.table.phase ≠ .valid ∨ (∃ t, s.table.table = some t ∧ q.mode < t.header.modeCount) →
      exec (.drainSubmitEntry p) s = .next (((u.withQueue (s.queue ++ [q])).reconsider).settle))

/-- The arbiter's rotation: the next grant goes to a waiting requester, to the first after the last one served, and a
requester that waits is served before any other is served twice (R53). -/
def Obligations.ArbiterRotation : Prop :=
  (∀ s : State, (s.turn = none ↔ ∀ r, s.waits r = false) ∧ ∀ r, s.turn = some r → s.waits r = true) ∧
  (∀ s : State, s.lastGrant = .survey → s.waits .portA = true → s.turn = some .portA) ∧
  (∀ s : State, s.lastGrant = .portA → s.waits .portB = true → s.turn = some .portB) ∧
  (∀ s : State, s.lastGrant = .portB → s.waits .survey = true → s.turn = some .survey) ∧
  ∀ (r q : Requester) (s t u : State), s.waits r = true → s.turn = some q → q ≠ r →
    t.lastGrant = q → t.waits r = true → t.turn ≠ some q ∧
    ∀ q', t.turn = some q' → q' ≠ r → u.lastGrant = q' → u.waits r = true → u.turn = some r

/-! ## Requests, the Scheduler and zones -/

/-- SUBMIT_UPDATE: the tests of R71 and R72 in order, each with its refusal; an accepted request joins the stream with
its rectangle clamped and mapped to the panel (R70 to R72, R74). -/
def Obligations.SubmitUpdate : Prop :=
  ∀ (p : Port) (s : State) (tag mode pol urg : Byte) (x0 y0 x1 y1 : Nat), s.takes p →
    x0 < 65536 → y0 < 65536 → x1 < 65536 → y1 < 65536 →
    let run := exec (.submitUpdate p ([tag, mode] ++ coordinates x0 y0 x1 y1 ++ [pol, urg])) s
    let refused := fun r => run = .next ((s.ends p 13 r).settle)
    let bad : Prop := tag = 0 ∨ 7 < mode.toNat ∨ 1 < pol.toNat ∨ 1 < urg.toNat ∨ ¬ (x0 ≤ x1 ∧ y0 ≤ y1)
    let busy : Prop := (∃ q ∈ s.streamRequests p, q.tag = tag.toNat) ∨
      (∃ q ∈ s.queue, q.port = p ∧ q.tag = tag.toNat) ∨
      ∃ l, (s.lane l).state ≠ .free ∧ (s.lane l).owner = p ∧ (s.lane l).tag = tag.toNat
    let full : Prop := 24 < s.queue.length + (s.streamRequests .a).length + (s.streamRequests .b).length + 1 ∨
      16 < (s.queue.filter fun q => q.port = p).length + (s.streamRequests p).length + 1
    let c := (s.port p).ctx
    let right := portWidth c.orientation s.width s.height - 1
    let bottom := portHeight c.orientation s.width s.height - 1
    let r : Rect := ⟨min x0 right, min y0 bottom, min x1 right, min y1 bottom⟩
    let q : Request := ⟨p, tag.toNat, mode.toNat, rectToPanel c s.width s.height r,
      if pol = 0 then .hold else .skip, decide (urg = 1)⟩
    (bad → refused .badParam) ∧
    (¬ bad → s.supply.state = .halted → refused .halted) ∧
    (¬ bad → s.supply.state ≠ .halted → busy → refused .duplicateTag) ∧
    (¬ bad → s.supply.state ≠ .halted → ¬ busy → full → refused .queueFull) ∧
    (¬ bad → s.supply.state ≠ .halted → ¬ busy → ¬ full → run = .next ((s.setPort p
      { s.ended p 13 (if x0 ≤ right ∧ y0 ≤ bottom ∧ x1 ≤ right ∧ y1 ≤ bottom then .ok else .clamped) with
        stream := (s.port p).stream ++ [.submit q] }).settle))

/-- WITHDRAW, by the place where the port's request of the tag is found (R84, R110, R111, R124, R125). -/
def Obligations.Withdraw : Prop :=
  ∀ (p : Port) (s : State) (tag : Byte), s.takes p →
    let n := tag.toNat
    let run := exec (.withdraw p [tag]) s
    let u := s.ends p 2 .ok
    let record := fun mode => (⟨n, .withdrawn, mode, mode, false, false, none⟩ : DoneRecord)
    let inStream : Prop := ∃ q, Entry.submit q ∈ (s.port p).stream ∧ q.tag = n
    let inQueue : Prop := ∃ q ∈ s.queue, q.port = p ∧ q.tag = n
    let holds := fun l => (s.lane l).state ≠ .free ∧ (s.lane l).owner = p ∧ (s.lane l).tag = n
    let released := fun (L : Lane) => { L with state := .retiring, kind := some .release, outcome := some .withdrawn }
    (tag = 0 → run = .next ((s.ends p 2 .badParam).settle)) ∧
    (∀ before q after, tag ≠ 0 → (s.port p).stream = before ++ .submit q :: after → q.tag = n →
      (∀ q', Entry.submit q' ∈ before → q'.tag ≠ n) →
      run = .next (((u.setPort p { u.port p with stream := before ++ after }).appendDone p (record q.mode)).settle)) ∧
    (∀ before q after, tag ≠ 0 → ¬ inStream → s.queue = before ++ q :: after → q.port = p → q.tag = n →
      (∀ q' ∈ before, q'.port = p → q'.tag ≠ n) →
      run = .next ((((u.withQueue (before ++ after)).appendDone p (record q.mode)).reconsider).settle)) ∧
    (∀ l, tag ≠ 0 → ¬ inStream → ¬ inQueue → holds l → (∀ k, holds k → k = l) →
      let L := s.lane l
      (L.state = .pending → run = .next ((((((if L.report then u.appendDone p (record L.requestedMode) else u).setLane l
        Lane.rest).withSurveyList (s.surveyList.filter fun k => decide (k ≠ l)))).reconsider).settle)) ∧
      (∀ w, L.state = .survey → s.survey = some w → w.lane = l → run = .next (((((u.withSurvey none).setLane l
        (released (L.decided w.mode))).withRetireList (s.retireList ++ [l])).startRetire).settle)) ∧
      (L.state = .armed → run = .next (((((u.setLane l (released L)).withArmingList
        (s.armingList.filter fun k => decide (k ≠ l))).withRetireList (s.retireList ++ [l])).startRetire).settle)) ∧
      (L.state = .running → run = .next ((u.setLane l { L with abort := true }).settle)) ∧
      (L.state = .retiring → run = .next ((s.ends p 2 .tooLate).settle))) ∧
    (tag ≠ 0 → ¬ inStream → ¬ inQueue → (∀ l, ¬ holds l) → run = .next ((s.ends p 2 .unknownTag).settle))

/-- Which queued requests are eligible, which one the Scheduler chooses, and what a reconsideration does: one
allocation after another until no request is eligible (R77 to R79, R95). -/
def Obligations.Scheduler : Prop :=
  (∀ r q : Rect, r.x0 ≤ r.x1 → r.y0 ≤ r.y1 → q.x0 ≤ q.x1 → q.y0 ≤ q.y1 →
    (r.meets q = true ↔ ∃ x, r.has x = true ∧ q.has x = true)) ∧
  ∀ s : State,
    (∀ (older : List Request) (q : Request), s.eligible older q = true ↔
      s.table.phase = .valid ∧ s.supply.state ≠ .halted ∧ (∃ l, (s.lane l).state = .free) ∧
      (∀ o ∈ older, q.rect.meets o.rect = false) ∧
      (q.policy = .hold → (∀ l, (s.lane l).state ≠ .free → q.rect.meets (s.lane l).rect = false) ∧
        ∀ z zone, s.zone z = some zone → zone.owner ≠ q.port → q.rect.meets zone.rect = false)) ∧
    (s.choose = none ↔ ∀ (i : Nat) (q : Request), s.queue[i]? = some q → s.eligible (s.queue.take i) q = false) ∧
    (∀ i, s.choose = some i → ∃ q, s.queue[i]? = some q ∧ s.eligible (s.queue.take i) q = true ∧
      ∀ (j : Nat) (q' : Request), s.queue[j]? = some q' → s.eligible (s.queue.take j) q' = true →
        (q'.urgent = true → q.urgent = true) ∧ (q'.urgent = q.urgent → i ≤ j)) ∧
    (∀ (i : Nat) (q : Request) (l : LaneId), s.choose = some i → s.queue[i]? = some q → (s.lane l).state = .free →
      (∀ k, k < l → (s.lane k).state ≠ .free) →
      s.reconsider = (((s.withQueue (s.queue.eraseIdx i)).setLane l
        { state := .pending, owner := q.port, tag := q.tag, requestedMode := q.mode, finalMode := q.mode,
          promoted := false, policy := q.policy, report := true, rect := q.rect, band := none, stale := false,
          frameCount := 0, frameIndex := 0, abort := false, kind := none, claimed := 0, changing := 0, worn := 0,
          unknownClaimed := 0, busySkipped := 0, zoneSkipped := 0, unknownSkipped := 0, saturated := 0,
          longestRequested := 0, longestPromoted := 0, outcome := none }).withSurveyList
            (s.surveyList ++ [l])).reconsider) ∧
    (s.choose = none → s.reconsider = s) ∧ s.reconsider.choose = none

/-- RESERVE_ZONE (R87, R91) and RELEASE_ZONE (R88). -/
def Obligations.ReserveAndRelease : Prop :=
  (∀ (p : Port) (s : State) (zb : Byte) (x0 y0 x1 y1 : Nat), s.takes p →
    x0 < 65536 → y0 < 65536 → x1 < 65536 → y1 < 65536 →
    let run := exec (.reserveZone p (zb :: coordinates x0 y0 x1 y1)) s
    let c := (s.port p).ctx
    let right := portWidth c.orientation s.width s.height - 1
    let bottom := portHeight c.orientation s.width s.height - 1
    let r : Rect := ⟨min x0 right, min y0 bottom, min x1 right, min y1 bottom⟩
    (3 < zb.toNat ∨ ¬ (x0 ≤ x1 ∧ y0 ≤ y1) → run = .next ((s.ends p 10 .badParam).settle)) ∧
    ∀ z : Fin 4, zb.toNat = z.val → x0 ≤ x1 ∧ y0 ≤ y1 →
      (∀ zone, s.zone z = some zone → zone.owner ≠ p → run = .next ((s.ends p 10 .notOwner).settle)) ∧
      ((∀ zone, s.zone z = some zone → zone.owner = p) → run = .next
        (((s.ends p 10 (if x0 ≤ right ∧ y0 ≤ bottom ∧ x1 ≤ right ∧ y1 ≤ bottom then .ok else .clamped)).setZone z
          (some ⟨p, rectToPanel c s.width s.height r, s.zoneDuration⟩)).settle))) ∧
  (∀ (p : Port) (s : State) (zb : Byte), s.takes p →
    let run := exec (.releaseZone p [zb]) s
    (3 < zb.toNat → run = .next ((s.ends p 2 .badParam).settle)) ∧
    ∀ z : Fin 4, zb.toNat = z.val →
      (s.zone z = none → run = .next ((s.ends p 2 .ok).settle)) ∧
      (∀ zone, s.zone z = some zone →
        (zone.owner = p → run = .next ((((s.ends p 2 .ok).setZone z none).reconsider).settle)) ∧
        (zone.owner ≠ p → run = .next ((s.ends p 2 .notOwner).settle))))

/-- ZONE_LAPSE frees the zone, raises ZONE_LAPSED on its owner, reconsiders, and leaves DOZE (R89, R163);
STALE_TIMER_EXPIRY makes FRESH STALE with TEMP_STALE on both ports, keeps the band and the temperature, and leaves DOZE
(R44, R163). -/
def Obligations.TimedLapses : Prop :=
  (∀ (z : Fin 4) (zone : Zone) (s : State), s.zone z = some zone →
    exec (.zoneLapse z) s = .next
      (((((s.withPower { s.power with state := if s.power.state = .doze then .run else s.power.state }).setZone z
        none).setPort zone.owner { s.port zone.owner with flags := (s.port zone.owner).flags ||| 0x100
        }).reconsider).settle)) ∧
  (∀ s : State, s.temp.freshness = .fresh → s.temp.staleTimer.isSome = true →
    exec .staleTimerExpiry s = .next
      (((((s.withPower { s.power with state := if s.power.state = .doze then .run else s.power.state }).withTemp
        { s.temp with freshness := .stale, staleTimer := none }).setPort .a
          { s.portA with flags := s.portA.flags ||| 0x080 }).setPort .b
          { s.portB with flags := s.portB.flags ||| 0x080 }).settle))

/-! ## Temperature -/

/-- REPORT_TEMPERATURE: the clamped temperature, the band it selects in each state of the unit and of the table, the
stale timer (R40 to R44). -/
def Obligations.ReportTemperature : Prop :=
  ∀ (p : Port) (s : State) (b : Byte), s.takes p →
    let reported : Int := b.toInt
    let x : Int := max (-40) (min 85 reported)
    let h : Int := s.temp.hysteresis
    let after := fun band => .next (((s.ends p 2 (if x = reported then .ok else .clamped)).withTemp
      { s.temp with freshness := .fresh, effective := some x, band := band,
                    staleTimer := some s.temp.staleDuration }).settle)
    (s.table.phase ≠ .valid → exec (.reportTemperature p [b]) s = after none) ∧
    ∀ t, s.table.phase = .valid → s.table.table = some t →
      let count := fun y : Int => (t.bands.tail.filter fun r => decide (r.lower ≤ y)).length
      (s.temp.freshness ≠ .fresh → exec (.reportTemperature p [b]) s = after (some (count x))) ∧
      ∀ band, s.temp.freshness = .fresh → s.temp.band = some band →
        exec (.reportTemperature p [b]) s = after (some
          (if band < count (x - h) then count (x - h) else if count (x + h) < band then count (x + h) else band))

/-! ## The Waveform Table -/

/-- TABLE_BEGIN, TABLE_DATA, TABLE_END and TABLE_ABORT in every state of the table (R25 to R29, R36, R45). -/
def Obligations.TableCommands : Prop :=
  ∀ (p : Port) (s : State), s.takes p →
    let o := otherPort p
    let fresh : TableUnit := ⟨.loading p false, [], 0, none⟩
    let idle : Prop := ∀ own v, s.table.phase ≠ .loading own v
    ((∃ l, (s.lane l).state ≠ .free) → exec (.tableBegin p []) s = .next ((s.ends p 1 .inUse).settle)) ∧
    ((∀ l, (s.lane l).state = .free) →
      (∀ v, s.table.phase = .loading o v → exec (.tableBegin p []) s = .next ((s.ends p 1 .loadInProgress).settle)) ∧
      ((∃ v, s.table.phase = .loading p v) ∨ s.table.phase = .empty ∨ (∃ c, s.table.phase = .invalid c) →
        exec (.tableBegin p []) s = .next (((s.ends p 1 .ok).withTable fresh).settle)) ∧
      (s.table.phase = .valid → exec (.tableBegin p []) s = .next
        (((((s.withTable fresh).withTemp { s.temp with band := none }).setPort p
          { s.ended p 1 .ok with flags := (s.port p).flags ||| 0x200 }).setPort o
          { s.port o with flags := (s.port o).flags ||| 0x200 }).settle))) ∧
    (∀ d : List Byte,
      (s.table.phase = .loading p false → s.table.received + d.length ≤ 65536 →
        exec (.tableData p d) s = .next (((s.ends p (d.length + 1) .ok).withTable
          { s.table with memory := s.table.memory ++ d, received := s.table.received + d.length }).settle)) ∧
      (s.table.phase = .loading p false → 65536 < s.table.received + d.length →
        exec (.tableData p d) s = .next (((s.ends p (d.length + 1) .tooLarge).withTable
          { s.table with phase := .invalid .tooLarge }).settle)) ∧
      ((∃ v, s.table.phase = .loading o v) →
        exec (.tableData p d) s = .next ((s.ends p (d.length + 1) .loadInProgress).settle)) ∧
      (idle → exec (.tableData p d) s = .next ((s.ends p (d.length + 1) .notLoading).settle))) ∧
    (s.table.phase = .loading p false →
      exec (.tableEnd p []) s = .next (((s.ends p 1 .ok).withTable { s.table with phase := .loading p true }).settle)) ∧
    ((∃ v, s.table.phase = .loading o v) →
      exec (.tableEnd p []) s = .next ((s.ends p 1 .loadInProgress).settle)) ∧
    (idle → exec (.tableEnd p []) s = .next ((s.ends p 1 .notLoading).settle)) ∧
    (let gone := (s.ends p 1 .ok).withTable { s.table with phase := .invalid .aborted, memory := [] }
     (s.table.phase = .loading o true → exec (.tableAbort p []) s = .next ((gone.setPort o
       { s.port o with result := .aborted, flags := (s.port o).flags ||| 0x004 }).settle)) ∧
     ((∃ v, s.table.phase = .loading p v) ∨ s.table.phase = .loading o false →
       exec (.tableAbort p []) s = .next gone.settle)) ∧
    (idle → exec (.tableAbort p []) s = .next ((s.ends p 1 .notLoading).settle))

/-- VALIDATION_END: VALID with the band reselected, the undefined modes swept and the queue reconsidered, or INVALID
with the failing step's code and REFUSED on the owner (R35, R36, R45, R82); and the code of the first of the nine steps
that fails, each step in terms of the records that the bytes up to it spell (R30 to R34, R186). -/
def Obligations.ValidationEnd : Prop :=
  (∀ (owner : Port) (s : State), s.table.phase = .loading owner true →
    (∀ code, validateImage s.table.memory = .error code →
      exec .validationEnd s = .next (((s.withTable { s.table with phase := .invalid code }).setPort owner
        { s.port owner with result := code, flags := (s.port owner).flags ||| 0x004 }).settle)) ∧
    ∀ t, validateImage s.table.memory = .ok t →
      let count := fun y : Int => (t.bands.tail.filter fun r => decide (r.lower ≤ y)).length
      let flagged := fun q : PortState => { q with flags := q.flags ||| 0x200 }
      let base := (((s.withTable { s.table with phase := .valid, table := some t }).withTemp
        { s.temp with band := s.temp.effective.map count }).setPort (otherPort owner)
          (flagged (s.port (otherPort owner)))).setPort owner { flagged (s.port owner) with result := .ok }
      let kept := s.queue.filter fun q => decide (q.mode < t.header.modeCount)
      let gone := s.queue.filter fun q => decide (t.header.modeCount ≤ q.mode)
      exec .validationEnd s = .next
        (((gone.foldl (fun u q => u.appendDone q.port ⟨q.tag, .badMode, q.mode, q.mode, false, false, none⟩)
          (base.withQueue kept)).reconsider).settle)) ∧
  ∀ img : List Byte,
    let fails := fun code => validateImage img = .error code
    ((¬ ∃ (h : Header) (rest : List Byte), h.Legal ∧ img = h.image ++ rest) → fails .badHeader) ∧
    ∀ (h : Header) (rest1 : List Byte), h.Legal → img = h.image ++ rest1 →
    (h.length ≠ img.length → fails .sizeMismatch) ∧
    (h.length = img.length →
      ((¬ ∃ bands rest, bands.length = h.bandCount ∧ BandsLegal bands ∧
        rest1 = bands.flatMap BandRecord.image ++ rest) → fails .badBands) ∧
      ∀ bands rest2, bands.length = h.bandCount → BandsLegal bands →
      rest1 = bands.flatMap BandRecord.image ++ rest2 →
      ((¬ ∃ modes rest, modes.length = h.modeCount ∧ ModesLegal modes ∧
        rest2 = modes.flatMap ModeRecord.image ++ rest) → fails .badModeRecord) ∧
      ∀ modes rest3, modes.length = h.modeCount → ModesLegal modes →
      rest2 = modes.flatMap ModeRecord.image ++ rest3 →
      (rest3.length < 2 * mapSize h.bandCount modes → fails .sizeMismatch) ∧
      ∀ map rest4, map.length = mapSize h.bandCount modes → (∀ n ∈ map, n < 65536) →
      rest3 = map.flatMap (bytesOf 2) ++ rest4 →
      (∀ (good : List Recipe) (rest : List Byte), good.length < h.recipeCount → (∀ r ∈ good, r.Legal) →
        rest4 = good.flatMap Recipe.image ++ rest →
        (rest = [] → fails .sizeMismatch) ∧
        ∀ c more, rest = c :: more →
          (more.length < c.toNat → fails .sizeMismatch) ∧
          (c.toNat ≤ more.length → (¬ ∃ r : Recipe, r.Legal ∧ r.image = c :: more.take c.toNat) → fails .badRecipe)) ∧
      ∀ (pool : List Recipe) (rest5 : List Byte), pool.length = h.recipeCount → (∀ r ∈ pool, r.Legal) →
      rest4 = pool.flatMap Recipe.image ++ rest5 →
        (rest5 ≠ [] → fails .sizeMismatch) ∧
        (rest5 = [] → (∃ n ∈ map, h.recipeCount ≤ n) → fails .badMap) ∧
        (rest5 = [] → (∀ n ∈ map, n < h.recipeCount) →
          (∃ mode m band dest v r, modes[mode]? = some m ∧ band < h.bandCount ∧ m.levels.holds dest = true ∧
            (⟨h, bands, modes, map, pool⟩ : Table).lookup mode band none dest v = some r ∧ r.length = 0) →
          fails .unknownRowEmpty))

/-- The validation accepts exactly the images of the tables that R16 to R20 and R31 to R34 allow, and reads each back
(R30 to R34, R186). -/
def Obligations.TableImageRoundTrip : Prop :=
  (∀ t : Table, t.Legal → validateImage t.image = .ok t) ∧
  ∀ (img : List Byte) (t : Table), validateImage img = .ok t → t.Legal ∧ t.image = img

/-- The drive code of a frame, a recipe's length and net, in terms of the frames its segments spell (R19, R22); every key
that a table defines has its own entry of the index map, and only the variant of a mode that is not compensating is
disregarded (R20, R21); the code that the scanner chooses for a record (R22, R139). -/
def Obligations.RecipeLookup : Prop :=
  (∀ (segs : List (Drive × Nat)),
    let frames := segs.flatMap fun g => List.replicate g.2 g.1
    (∀ k, segmentAt segs k = (frames[k]?).getD .hold) ∧ (Recipe.ofSegments segs).length = frames.length ∧
    (Recipe.ofSegments segs).net = (frames.countP fun d => decide (d = .pos) : Nat) -
      (frames.countP fun d => decide (d = .neg) : Nat)) ∧
  (∀ (t : Table) (i j : Nat) (m k : ModeRecord) (b c : Nat) (f g : Option Level) (d e : Level) (v w : Variant),
    t.Legal → t.modes[i]? = some m → t.modes[j]? = some k → b < t.bands.length → c < t.bands.length →
    m.levels.holds d = true → k.levels.holds e = true →
    mapIndex t.bands.length t.modes i m b f d v < t.map.length ∧
    (∃ r, t.lookup i b f d v = some r) ∧
    (mapIndex t.bands.length t.modes i m b f d v = mapIndex t.bands.length t.modes j k c g e w ↔
      i = j ∧ b = c ∧ f = g ∧ d = e ∧ (m.compensating = true → v = w))) ∧
  (∀ (s : State) (r : PixelRecord),
    (r.lane = none → s.driveCode r = .hold) ∧
    ∀ l, r.lane = some l →
      let L := s.lane l
      (L.state ≠ .running → s.driveCode r = .hold) ∧
      (L.state = .running → ∀ t b q, s.table.table = some t → L.band = some b →
        t.lookup L.finalMode b r.shown r.target r.variant = some q →
        s.driveCode r = segmentAt q.segments L.frameIndex))

/-! ## Settings and geometry -/

/-- SET_LIMITS and SET_TIMERS: each value clamped on its own, no running timer touched (R48, R91, R106, R158, R167,
R177); SET_FRAME_MARK: at once while IDLE, pending while SCANNING (R144); SET_EVENT_ENABLE, and the ATTN that flags and
enables give (R173). -/
def Obligations.SharedSettings : Prop :=
  (∀ (p : Port) (s : State), s.takes p →
    (∀ r w h : Byte, exec (.setLimits p [r, w, h]) s = .next
      ((((s.ends p 4 (if r.toNat ≤ 127 ∧ w.toNat ≤ 15 ∧ h.toNat ≤ 5 then .ok else .clamped)).withLimits
        (min r.toNat 127) (min w.toNat 15)).withTemp { s.temp with hysteresis := min h.toNat 5 }).settle)) ∧
    ∀ park rise fall doze stale zone : Nat, park < 65536 → rise < 65536 → fall < 65536 → doze < 65536 →
      stale < 65536 → zone < 65536 →
      let kept : Prop := park ≤ 10000 ∧ (1 ≤ rise ∧ rise ≤ 255) ∧ (1 ≤ fall ∧ fall ≤ 255) ∧ doze ≤ 10000 ∧
        (1 ≤ stale ∧ stale ≤ 600) ∧ (100 ≤ zone ∧ zone ≤ 10000)
      let after := fun r => .next ((((((s.ends p 13 r).withSupply
        { s.supply with parkDuration := min park 10000, riseDuration := max 1 (min rise 255),
                        fallDuration := max 1 (min fall 255) }).withPower
        { s.power with dozeDelay := min doze 10000 }).withTemp
        { s.temp with staleDuration := max 1 (min stale 600) }).withZoneDuration
          (max 100 (min zone 10000))).settle)
      let run := exec (.setTimers p (bytesOf 2 park ++ bytesOf 2 rise ++ bytesOf 2 fall ++ bytesOf 2 doze ++
        bytesOf 2 stale ++ bytesOf 2 zone)) s
      (kept → run = after .ok) ∧ (¬ kept → run = after .clamped)) ∧
  ((∀ (p : Port) (s : State) (row : Nat), s.takes p → row < 65536 →
    let mark := min row (s.height - 1)
    exec (.setFrameMark p (bytesOf 2 row)) s = .next
      (((s.ends p 3 (if row ≤ s.height - 1 then .ok else .clamped)).withScan
        (if s.scan.scanning then { s.scan with pendingMark := some mark }
          else { s.scan with markRow := mark, pendingMark := none })).settle)) ∧
  (∀ (p : Port) (s : State) (w : Nat), s.takes p → w < 65536 →
    (w < 4096 → exec (.setEventEnable p (bytesOf 2 w)) s = .next
      ((s.setPort p { s.ended p 3 .ok with enables := BitVec.ofNat 12 w }).settle)) ∧
    (4096 ≤ w → exec (.setEventEnable p (bytesOf 2 w)) s = .next ((s.ends p 3 .badParam).settle))) ∧
  ∀ (p : Port) (s : State), s.attnLow p = true ↔
    ∃ f : Flag, flagSet (s.port p).flags f = true ∧ flagSet (s.port p).enables f = true)

/-- SET_GEOMETRY: refused BAD_PARAM or IN_USE with nothing changed, or accepted with the geometry taken at once, the
sweep begun and the frame-mark row inside (R67, R144). That a value out of range is BAD_PARAM also where an IN_USE
condition fails too is the model's choice (Log 37). -/
def Obligations.SetGeometry : Prop :=
  ∀ (p : Port) (s : State) (w h : Nat), s.takes p → w < 65536 → h < 65536 →
    let run := exec (.setGeometry p (bytesOf 2 w ++ bytesOf 2 h)) s
    let inRange : Prop := 64 ≤ w ∧ w ≤ 2048 ∧ 64 ≤ h ∧ h ≤ 1600
    let free : Prop := (∀ l, (s.lane l).state = .free) ∧ s.queue = [] ∧ s.portA.stream = [] ∧ s.portB.stream = [] ∧
      (∀ z, s.zone z = none) ∧ ∀ r, (s.port (otherPort p)).txn ≠ .reading r
    (¬ inRange → run = .next ((s.ends p 5 .badParam).settle)) ∧
    (inRange → ¬ free → run = .next ((s.ends p 5 .inUse).settle)) ∧
    (inRange → free → run = .next (((((s.ends p 5 .ok).withGeometry w h).withPower
      { s.power with geometrySweep := true }).withScan
      { s.scan with markRow := min s.scan.markRow (h - 1), pendingMark := none }).settle))

/-- GEOMETRY_SWEEP_END: both stores swept, both contexts fitted, and the transactions held meanwhile are taken, those of
a port in the order of their select edges, a command as at its own rise (R13, R53, R61, R68, R168; Log 21, Log 32). -/
def Obligations.GeometrySweepEnd : Prop :=
  (∀ s : State, s.power.geometrySweep = true →
    let fitted := fun q : PortState => { q with ctx := { q.ctx with
      cursor := some (0, 0)
      window := ⟨0, 0, portWidth q.ctx.orientation s.width s.height - 1,
        portHeight q.ctx.orientation s.width s.height - 1⟩ } }
    let u := (((((s.withImage []).withPixels []).withLastGrant .survey).setPort .a (fitted s.portA)).setPort .b
      (fitted s.portB)).withPower { s.power with geometrySweep := false }
    exec .geometrySweepEnd s = .next (((u.applyHeld .a).applyHeld .b).settle)) ∧
  (∀ (p : Port) (s : State),
    (s.power.geometrySweep = true ∨ (s.port p).held = [] → s.applyHeld p = s) ∧
    (s.power.geometrySweep = false → s.applyHeld p = (s.port p).held.foldl (fun t h =>
      match h with
      | .command i => effectOf i t
      | .writeEnd r => t.setPort p { t.port p with
          result := r, flags := if 16 ≤ r.code.toNat then (t.port p).flags ||| 0x004 else (t.port p).flags }
      | .untaken => t.setPort p { t.port p with
          consent := false, result := .badFrame, flags := (t.port p).flags ||| 0x004 })
      (s.setPort p { s.port p with held := [] }))) ∧
  ∀ (i : Instr) (p : Port) (req : List Byte) (more : Bool) (n : Nat) (s : State),
    requestOf i = some (p, req, more, n) → s.takes p → (if more then n ≤ req.length else req.length = n) →
    exec i s = .next ((effectOf i (s.setPort p
      { s.port p with
        txn := .closed, consent := false, response := []
        dataOut := s.sentOut p (req.length + 1) })).settle)

/-! ## Queries -/

/-- GET_RESULT, GET_ID and GET_EVENTS: the response led by the result as it stood, and the query's own effects (R171,
R174, R178, R185). -/
def Obligations.ShortQueries : Prop :=
  ∀ (p : Port) (s : State) (fill : List Byte), s.takes p →
    let q := s.port p
    let e := s.ended p (fill.length + 1) .ok
    exec (.getResult p fill) s = .next ((s.setPort p { e with response := [q.result.code] }).settle) ∧
    exec (.getId p fill) s = .next ((s.setPort p { e with response := [q.result.code, 0x09, 0x88, 1, 1] }).settle) ∧
    exec (.getEvents p fill) s = .next ((s.setPort p
      { e with flags := 0
               response := q.result.code :: bytesOf 2 q.flags.toNat ++ [byteOf q.done.length] }).settle)

/-- GET_DONE: the oldest record leaves the queue into the response; an empty queue gives the record of no request
(R176, R185; its flag byte: Log 18). A record joins the tail with DONE, or is discarded with DONE_LOST (R175). -/
def Obligations.DoneQueue : Prop :=
  (∀ (p : Port) (s : State) (fill : List Byte), s.takes p →
    let q := s.port p
    let e := s.ended p (fill.length + 1) .ok
    (∀ d rest, q.done = d :: rest → exec (.getDone p fill) s = .next ((s.setPort p
      { e with
        done := rest
        response := [q.result.code, byteOf d.tag,
            (match d.outcome with | .completed => 1 | .empty => 2 | .withdrawn => 3 | .faulted => 4 | .badMode => 5),
            byteOf d.requestedMode, byteOf d.finalMode,
            byteOf ((if d.promoted then 1 else 0) + (if d.stale then 2 else 0))] ++
          match d.figures with
          | none => List.replicate 18 0xFF
          | some f => (match f.band with | none => 0xFF | some b => byteOf b) :: (bytesOf 2 f.framesDriven ++
              bytesOf 3 f.claimed ++ bytesOf 3 f.busySkipped ++ bytesOf 3 f.zoneSkipped ++
              bytesOf 3 f.unknownSkipped ++ bytesOf 3 f.saturated) }).settle)) ∧
    (q.done = [] → exec (.getDone p fill) s = .next ((s.setPort p
      { e with response := [q.result.code, 0, 0, 0xFF, 0xFF, 0x03] ++ List.replicate 18 0xFF }).settle))) ∧
  ∀ (p : Port) (s : State) (d : DoneRecord),
    ((s.port p).done.length < 16 → s.appendDone p d = s.setPort p
      { s.port p with done := (s.port p).done ++ [d], flags := (s.port p).flags ||| 0x001 }) ∧
    (16 ≤ (s.port p).done.length → s.appendDone p d = s.setPort p
      { s.port p with flags := (s.port p).flags ||| 0x002 })

/-- GET_PIXEL: the record at panel coordinates, or BAD_PARAM outside the geometry (R15). -/
def Obligations.GetPixel : Prop :=
  ∀ (p : Port) (s : State) (x y : Nat) (fill : List Byte), s.takes p → x < 65536 → y < 65536 →
    let q := s.port p
    let r := s.pixel (x, y)
    let run := exec (.getPixel p (bytesOf 2 x ++ bytesOf 2 y ++ fill)) s
    (x < s.width ∧ y < s.height → run = .next ((s.setPort p
      { s.ended p (fill.length + 5) .ok with response :=
        [q.result.code, (match r.shown with | none => 0x10 | some v => byteOf v.val),
         (match r.lane with | none => 0xFF | some l => byteOf (l.val + 1)), byteOf r.target.val,
         (if r.variant = .p then 1 else 0), BitVec.ofInt 8 r.residue, byteOf r.wear] }).settle)) ∧
    (¬ (x < s.width ∧ y < s.height) → run = .next ((s.setPort p
      { s.ended p (fill.length + 5) .badParam with response := [q.result.code] }).settle))

/-- GET_STATUS, GET_SCAN and GET_TABLE_INFO: the layout of their responses (R37, R51, R145, R159, R167, R171,
R185). -/
def Obligations.StatusQueries : Prop :=
  ∀ (p : Port) (s : State) (fill : List Byte), s.takes p →
    let q := s.port p
    let answered := fun bytes : List Byte =>
      (s.setPort p { s.ended p (fill.length + 1) .ok with response := q.result.code :: bytes }).settle
    let lanes := fun l : LaneId => let L := s.lane l
      match L.state with
      | .free => [0, 0xFF, 0xFF]
      | st => [(match st with | .free => 0 | .pending => 1 | .survey => 2 | .armed => 3 | .running => 4 | .retiring => 5),
          (match L.owner with | .a => 0 | .b => 1), byteOf L.tag]
    let counts := fun o : Port => [byteOf (s.queue.filter fun r => decide (r.port = o)).length,
      byteOf (s.streamRequests o).length, byteOf (s.port o).stream.length]
    let zoneCode := fun z : Option Zone => match z with | none => (0 : Byte) | some ⟨.a, _, _⟩ => 1 | some ⟨.b, _, _⟩ => 2
    let band := fun b : Option Nat => match b with | none => (0xFF : Byte) | some n => byteOf n
    let number := fun l : Option LaneId => match l with | none => (0xFF : Byte) | some l => byteOf (l.val + 1)
    let status := laneIds.flatMap lanes ++ [number (s.survey.map Survey.lane), number (s.retire.map RetireWalk.lane)] ++
      counts .a ++ counts .b ++ [zoneCode (s.zone 0), zoneCode (s.zone 1), zoneCode (s.zone 2), zoneCode (s.zone 3),
        (match s.supply.state with
          | .off => 0 | .rising => 1 | .on => if s.scan.scanning then 3 else 2 | .falling => 4 | .tripped => 5
          | .halted => 6),
        (if s.supply.recovery then 1 else 0),
        (match s.supply.cause with | .none => 0 | .riseTimeout => 1 | .railLost => 2), 1,
        (match p with
          | .a => if s.portB.consent then 2 else 0
          | .b => if s.portA.consent then 1 else 0),
        (match s.temp.freshness with | .absent => 0 | .fresh => 1 | .stale => 2),
        (match s.temp.effective with | none => 0x80 | some x => BitVec.ofInt 8 x), band s.temp.band]
    let count := bytesOf 3 s.table.received
    let none10 := List.replicate 10 (0xFF : Byte)
    exec (.getStatus p fill) s = .next (answered status) ∧ status.length = 65 ∧
    exec (.getScan p fill) s = .next (answered
      ((if s.scan.scanning then 1 else 0) ::
        ((match s.scan.row with | none => [0xFF, 0xFF] | some y => bytesOf 2 y) ++ bytesOf 2 s.scan.counter ++
          [band s.scan.band] ++ bytesOf 2 s.scan.markRow))) ∧
    (s.table.phase = .empty → exec (.getTableInfo p fill) s =
      .next (answered ([0, 0xFF, 0] ++ count ++ [0xFF] ++ none10))) ∧
    (∀ own v, s.table.phase = .loading own v → exec (.getTableInfo p fill) s = .next (answered
      ([(1 : Byte), (match own with | .a => 0 | .b => 1), (if v then 1 else 0)] ++ count ++ [0xFF] ++ none10))) ∧
    (∀ c, s.table.phase = .invalid c → exec (.getTableInfo p fill) s =
      .next (answered ([3, 0xFF, 0] ++ count ++ [c.code] ++ none10))) ∧
    ∀ t, s.table.phase = .valid → s.table.table = some t → exec (.getTableInfo p fill) s = .next (answered
      ([2, 0xFF, 0] ++ count ++ [0xFF, byteOf t.header.version, byteOf t.header.modeCount, byteOf t.header.bandCount,
        byteOf t.header.staleBand] ++ bytesOf 2 t.header.recipeCount ++ bytesOf 4 t.header.length))

/-! ## The two reset commands -/

/-- PORT_RESET returns everything that belongs to the port to its starting point, ends its lanes with no record and
reconsiders; the other port's state is untouched (R179; R14, R38, R69, R92, R93, R114, R127, R135). -/
def Obligations.PortReset : Prop :=
  ∀ (p : Port) (s : State), s.takes p → LanesSound s →
    let mine := fun l : LaneId => decide ((s.lane l).owner = p)
    let released := laneIds.filter fun l =>
      mine l && (decide ((s.lane l).state = .survey) || decide ((s.lane l).state = .armed))
    ∃ u : State, exec (.portReset p []) s = .next (u.reconsider.settle) ∧
      u = { s with
        portA := u.portA, portB := u.portB, lanes := u.lanes, zones := u.zones, retire := u.retire
        queue := s.queue.filter fun q => decide (q.port ≠ p)
        surveyList := s.surveyList.filter fun l => !mine l
        survey := if s.survey.any fun w => mine w.lane then none else s.survey
        armingList := s.armingList.filter fun l => !mine l
        retireList := s.retireList ++ released
        table := if s.table.phase = .loading p true ∨ s.table.phase = .loading p false then
          { s.table with phase := .invalid .aborted, memory := [] } else s.table } ∧
      u.port (otherPort p) = s.port (otherPort p) ∧
      u.port p = { s.ended p 1 .ok with
        ctx := ⟨.rot0, false, ⟨0, 0, s.width - 1, s.height - 1⟩, some (0, 0), .p4⟩
        stream := [], flags := 0, enables := 0x061, done := [], held := [] } ∧
      (∀ z, u.zone z = if (s.zone z).any fun zone => decide (zone.owner = p) then none else s.zone z) ∧
      (∀ l, u.lane l = if mine l then endedLane s (s.lane l) else s.lane l) ∧
      (∀ w, s.retire = some w → u.retire = some w) ∧
      (s.retire = none → u.retire = released.head?.map fun l =>
        let m := s.modeRecord (u.lane l).finalMode
        ⟨l, some ((s.lane l).rect.x0, (s.lane l).rect.y0), m.clearing, m.cost⟩)

/-- PART_RESET: both ports, every lane, the queue, the zones, the settings, the temperature, a load under way and the
supply return to their starting points; the stores, the geometry and a VALID table stay (R180; R14, R38, R50, R53, R69,
R92, R93, R106, R114, R127, R135, R147, R160, R167). -/
def Obligations.PartReset : Prop :=
  ∀ (p : Port) (s : State), s.takes p → LanesSound s →
    let released := laneIds.filter fun l =>
      decide ((s.lane l).state = .survey) || decide ((s.lane l).state = .armed)
    let cleared := fun q : PortState => { q with
      ctx := ⟨.rot0, false, ⟨0, 0, s.width - 1, s.height - 1⟩, some (0, 0), .p4⟩
      stream := [], result := .ok, response := [], flags := 0x800, enables := 0x061, done := [], consent := false
      held := [] }
    let settings := { s.supply with recovery := false, cause := .none, windDown := false, riseDuration := 30,
                                    parkDuration := 800, fallDuration := 15 }
    ∃ u : State, exec (.partReset p []) s = .next u.settle ∧
      u = { s with
        portA := u.portA, portB := u.portB, lanes := u.lanes, zones := u.zones, retire := u.retire
        supply := u.supply, scan := u.scan
        lastGrant := .survey, queue := [], surveyList := [], survey := none, armingList := []
        retireList := s.retireList ++ released
        table := match s.table.phase with
          | .loading _ _ => { s.table with phase := .invalid .aborted, memory := [] }
          | _ => s.table
        temp := ⟨.absent, none, none, none, 1, 60⟩, zoneDuration := 1500, residueLimit := 64, wearLimit := 12
        power := { s.power with dozeDelay := 50, resetWait := true } } ∧
      u.port p = { cleared (s.port p) with txn := .closed, dataOut := (s.ended p 1 .ok).dataOut } ∧
      u.port (otherPort p) = { cleared (s.port (otherPort p)) with
        txn := if (s.port (otherPort p)).txn = .closed then .closed else .discarded } ∧
      (∀ z, u.zone z = none) ∧ (∀ l, u.lane l = endedLane s (s.lane l)) ∧
      (∀ w, s.retire = some w → u.retire = some w) ∧
      (s.retire = none → u.retire = released.head?.map fun l =>
        let m := s.modeRecord (u.lane l).finalMode
        ⟨l, some ((s.lane l).rect.x0, (s.lane l).rect.y0), m.clearing, m.cost⟩) ∧
      (s.scan.scanning = true → u.scan = { s.scan with pendingMark := some 0 }) ∧
      (s.scan.scanning = false → u.scan = { s.scan with markRow := 0, pendingMark := none }) ∧
      (s.supply.state = .off → u.supply = { settings with riseTimer := none, parkTimer := none, fallTimer := none }) ∧
      (s.supply.state = .rising ∨ s.supply.state = .on ∧ s.scan.scanning = false → u.supply =
        { settings with state := .falling, riseTimer := none, parkTimer := none, fallTimer := some 15 }) ∧
      (s.supply.state = .on → s.scan.scanning = true → u.supply = { settings with windDown := true }) ∧
      (s.supply.state = .falling ∨ s.supply.state = .tripped → u.supply = settings) ∧
      (s.supply.state = .halted → u.supply =
        { settings with state := if s.supply.fallTimer.isSome then .falling else .off })

/-! ## A lane's life -/

/-- SURVEY_START: the head lane of the survey list enters SURVEY with its band and stale flag, and the engine takes the
limits and the attributes (R46, R96, R97). -/
def Obligations.SurveyStart : Prop :=
  ∀ (s : State) (l : LaneId) (rest : List LaneId), s.survey = none → s.surveyList = l :: rest →
    let L := s.lane l
    let m := s.modeRecord L.requestedMode
    let after := fun band stale => .next ((((s.setLane l
      { L with state := .survey, band := band, stale := stale }).withSurveyList rest).withSurvey
      (some ⟨l, some (L.rect.x0, L.rect.y0), s.residueLimit, s.wearLimit, m, m.promote.map s.modeRecord, none⟩)).settle)
    (s.temp.freshness = .fresh → exec .surveyStart s = after s.temp.band false) ∧
    (s.temp.freshness ≠ .fresh → exec .surveyStart s = after (s.table.table.map fun t => t.header.staleBand) true)

/-- SURVEY_VISIT: the Image Store read in its turn, then the five tests in order, the claim and the counts (R4, R98 to
R105). -/
def Obligations.SurveyVisit : Prop :=
  ∀ (s : State) (w : Survey) (x : Pos), s.survey = some w → w.pos = some x →
    (w.read = none → s.turn = some .survey → exec (.surveyVisit .imageRead) s =
      .next (((s.withLastGrant .survey).withSurvey (some { w with read := some (s.level x) })).settle)) ∧
    ∀ v, w.read = some v ∨ (w.read = none ∧ s.turn = some .survey ∧ v = s.level x) →
      let L := s.lane w.lane
      let r := s.pixel x
      let t : Level := match w.mode.levels with
        | .sixteen => v
        | .four => levelOf (v.val / 4 * 5)
        | .two => if 8 ≤ v.val then 15 else 0
      let variant : Variant := if 0 < r.residue then .p else .n
      let zoned : Prop := L.policy = .skip ∧ ∃ z zone, s.zone z = some zone ∧ zone.owner ≠ L.owner ∧ zone.rect.has x = true
      let unknown : Prop := r.shown = none ∧ w.mode.acceptsUnknown = false ∧ w.mode.promote = none
      let unchanged : Prop := r.shown = some t ∧ w.mode.drivesUnchanged = false
      let recipe := s.recipe L.requestedMode L.band r.shown t variant
      let worn : Prop := (w.residueLimit : Int) < r.residue + recipe.net ∨
        r.residue + recipe.net < -(w.residueLimit : Int) ∨ w.wearLimit < r.wear + w.mode.cost
      let after := fun (L' : Lane) (pixels : Store PixelRecord) =>
        (((((if w.read = none then s.withLastGrant .survey else s).setLane w.lane L').withPixels pixels).withSurvey
          (some { w with pos := L.rect.nextPos x, read := none })).settle)
      let run := exec (.surveyVisit .whole) s
      (r.lane ≠ none → run = .next (after { L with busySkipped := L.busySkipped + 1 } s.pixels)) ∧
      (r.lane = none → zoned → run = .next (after { L with zoneSkipped := L.zoneSkipped + 1 } s.pixels)) ∧
      (r.lane = none → ¬ zoned → unknown →
        run = .next (after { L with unknownSkipped := L.unknownSkipped + 1 } s.pixels)) ∧
      (r.lane = none → ¬ zoned → ¬ unknown → unchanged → run = .next (after L s.pixels)) ∧
      (r.lane = none → ¬ zoned → ¬ unknown → ¬ unchanged → ∃ L' pixels, run = .next (after L' pixels) ∧
        L' = { L with
          claimed := L.claimed + 1, changing := L'.changing, unknownClaimed := L'.unknownClaimed, worn := L'.worn
          longestRequested := max L.longestRequested recipe.length, longestPromoted := L'.longestPromoted } ∧
        (r.shown = some t → L'.changing = L.changing ∧ L'.worn = L.worn) ∧
        (r.shown ≠ some t → L'.changing = L.changing + 1) ∧
        (r.shown = none → L'.unknownClaimed = L.unknownClaimed + 1 ∧ L'.worn = L.worn) ∧
        (r.shown ≠ none → L'.unknownClaimed = L.unknownClaimed) ∧
        (r.shown ≠ none → r.shown ≠ some t → worn → L'.worn = L.worn + 1) ∧
        (r.shown ≠ none → r.shown ≠ some t → ¬ worn → L'.worn = L.worn) ∧
        (w.mode.promote = none → L'.longestPromoted = L.longestPromoted) ∧
        (∀ k, w.mode.promote = some k → L'.longestPromoted =
          max L.longestPromoted (s.recipe k L.band r.shown t variant).length) ∧
        (StoresSound s → x.1 < 2048 →
          (s.withPixels pixels).pixel x = { r with lane := some w.lane, target := t, variant := variant } ∧
          ∀ y : Pos, y.1 < 2048 → y ≠ x → (s.withPixels pixels).pixel y = s.pixel y))

/-- SURVEY_END after a complete walk: FREE with the EMPTY record, RETIRING as NORMAL, or ARMED with the demand for the
rails it makes (R108, R109, R116, R149, R150), with the promotion decision that the lane's fields then show (R107,
R108). -/
def Obligations.SurveyEnd : Prop :=
  (∀ (s : State) (w : Survey), s.survey = some w → w.pos = none →
    let L := (s.lane w.lane).decided w.mode
    let idle := s.withSurvey none
    let record : DoneRecord := ⟨L.tag, .empty, L.requestedMode, L.finalMode, L.promoted, L.stale,
      some ⟨L.band, L.frameIndex, L.claimed, L.busySkipped, L.zoneSkipped, L.unknownSkipped, L.saturated⟩⟩
    (L.claimed = 0 → exec .surveyEnd s = .next
      (((((if L.report then idle.appendDone L.owner record else idle).setLane w.lane Lane.rest)).reconsider).settle)) ∧
    (0 < L.claimed → L.frameCount = 0 → exec .surveyEnd s = .next
      ((((idle.setLane w.lane { L with state := .retiring, kind := some .normal, outcome := some .completed
        }).withRetireList (s.retireList ++ [w.lane])).startRetire).settle)) ∧
    (0 < L.claimed → 0 < L.frameCount → exec .surveyEnd s = .next
      ((((idle.setLane w.lane { L with state := .armed, frameIndex := 0, abort := false }).withArmingList
        (s.armingList ++ [w.lane])).withSupply
          (if s.supply.state ≠ .off then s.supply
            else if s.supply.railGood then
              { s.supply with state := .on, riseTimer := none, parkTimer := some s.supply.parkDuration }
            else { s.supply with state := .rising, riseTimer := some s.supply.riseDuration })).settle))) ∧
  (∀ (m : ModeRecord) (l : Lane),
    (∀ x, m.promote = some x →
      l.unknownClaimed > 0 ∨ (l.changing > 0 ∧ l.worn * 256 ≥ m.ratio * l.changing) →
      l.decided m = { l with finalMode := x, promoted := true, frameCount := l.longestPromoted }) ∧
    (m.promote = none ∨ ¬ (l.unknownClaimed > 0 ∨ (l.changing > 0 ∧ l.worn * 256 ≥ m.ratio * l.changing)) →
      l.decided m = { l with finalMode := l.requestedMode, promoted := false, frameCount := l.longestRequested }))

/-- SCAN_START: the head ARMED lane gives the band, every ARMED lane of that band runs from index 0, the first frame
begins and the park timer stops (R118, R137, R143, R151). -/
def Obligations.ScanStart : Prop :=
  ∀ (s : State) (h : LaneId) (rest : List LaneId), s.armingList = h :: rest → s.supply.state = .on →
    s.scan.scanning = false →
    let band := (s.lane h).band
    let mark := s.scan.pendingMark.getD s.scan.markRow
    ∃ lanes : Vector Lane 15,
      (∀ l : LaneId, (s.withLanes lanes).lane l = if l ∈ s.armingList ∧ (s.lane l).band = band then
        { s.lane l with state := .running, frameIndex := 0 } else s.lane l) ∧
      exec .scanStart s = .next (((((s.withLanes lanes).withArmingList
        (s.armingList.filter fun l => decide ((s.lane l).band ≠ band))).withScan
        { s.scan with
          scanning := true, band := band, period := band.bind s.bandPeriod, row := some 0, walkRow := 0, walkCol := 0
          counter := 0, markRow := mark, pendingMark := none
          markPulses := s.scan.markPulses + if mark = 0 then 1 else 0 }).withSupply
        { s.supply with parkTimer := none }).settle)

/-- FRAME_ROW: the walk visits the next pixels of the row being taken, each record takes its residue step, each lane
counts its clips, and the frame-mark row gives its pulse (R8, R138, R140, R143). -/
def Obligations.FrameRow : Prop :=
  ∀ (s : State) (n : Nat), s.scan.scanning = true → s.scan.walkRow < s.height → 0 < n → s.width ≤ 2048 →
    StoresSound s →
    let c := s.scan
    let stop := min s.width (c.walkCol + n)
    let visited := ((List.range stop).filter fun k => decide (c.walkCol ≤ k)).map fun k => ((k, c.walkRow) : Pos)
    ∃ (lanes : Vector Lane 15) (pixels : Store PixelRecord),
      exec (.frameRow n) s = .next ((((s.withLanes lanes).withPixels pixels).withScan
        { c with
          row := some c.walkRow
          walkRow := if stop = s.width then c.walkRow + 1 else c.walkRow
          walkCol := if stop = s.width then 0 else stop
          markPulses := c.markPulses +
            if c.walkCol = 0 ∧ c.walkRow = c.markRow ∧ c.walkRow ≠ 0 then 1 else 0 }).settle) ∧
      (∀ x ∈ visited, (s.withPixels pixels).pixel x = (s.pixel x).stepped (s.driveCode (s.pixel x))) ∧
      (∀ x : Pos, x.1 < 2048 → x ∉ visited → (s.withPixels pixels).pixel x = s.pixel x) ∧
      ∀ l : LaneId, (s.withLanes lanes).lane l =
        { s.lane l with saturated := min 65535 ((s.lane l).saturated + s.clipCount visited l) }

/-- FRAME_BOUNDARY after a whole walk: the counter, the recovery mark, the advance and retirement of the RUNNING lanes
in number order, then the admissions and the next frame, or IDLE with the supply parked or falling and a pending
frame-mark row in force (R117, R121, R141, R142, R151, R155, R160; Log 15). -/
def Obligations.FrameBoundary : Prop :=
  ∀ s : State, s.scan.scanning = true → s.height ≤ s.scan.walkRow → (∀ l, (s.lane l).saturated ≤ 65535) →
    let running := fun l => (s.lane l).state = .running
    let ends := fun l => (s.lane l).abort = true ∨ (s.lane l).frameIndex + 1 = (s.lane l).frameCount
    let advanced := fun l : LaneId =>
      let L := { s.lane l with frameIndex := (s.lane l).frameIndex + 1 }
      if (s.lane l).state ≠ .running then s.lane l
      else if L.abort then { L with state := .retiring, kind := some .partialDrive, outcome := some .withdrawn }
      else if L.frameIndex = L.frameCount then
        { L with state := .retiring, kind := some .normal, outcome := some .completed }
      else L
    let retired := laneIds.filter fun l => decide ((s.lane l).state = .running) &&
      ((s.lane l).abort || decide ((s.lane l).frameIndex + 1 = (s.lane l).frameCount))
    let admitted := s.armingList.takeWhile fun l => decide ((s.lane l).band = s.scan.band)
    let mark := s.scan.pendingMark.getD s.scan.markRow
    let counter := (s.scan.counter + 1) % 65536
    ∃ lanes : Vector Lane 15,
      let t := (s.withLanes lanes).withRetireList (s.retireList ++ retired)
      ((∃ l, running l ∧ ¬ ends l) →
        (∀ l : LaneId, (s.withLanes lanes).lane l =
          if l ∈ admitted then { advanced l with state := .running, frameIndex := 0 } else advanced l) ∧
        exec .frameBoundary s = .next (((((t.withArmingList
          (s.armingList.filter fun l => !admitted.contains l)).withScan
          { s.scan with
            counter := counter, row := some 0, walkRow := 0, walkCol := 0, markRow := mark, pendingMark := none
            markPulses := s.scan.markPulses + if mark = 0 then 1 else 0 }).withSupply
          { s.supply with recovery := false }).startRetire).settle)) ∧
      ((∀ l, running l → ends l) →
        (∀ l : LaneId, (s.withLanes lanes).lane l = advanced l) ∧
        exec .frameBoundary s = .next ((((t.withScan
          { s.scan with
            counter := counter, scanning := false, band := none, period := none, row := none, walkRow := 0, walkCol := 0
            markRow := mark, pendingMark := none }).withSupply
          (if s.supply.windDown then
            { s.supply with recovery := false, windDown := false, state := .falling, riseTimer := none,
                            parkTimer := none, fallTimer := some s.supply.fallDuration }
          else { s.supply with recovery := false, parkTimer := some s.supply.parkDuration })).startRetire).settle))

/-- A boundary that comes before the walk has taken every row takes them first, in the same step: every frame that
reaches its boundary has made its step at every pixel (R138, R140; Log 10). -/
def Obligations.BoundaryTakesRest : Prop :=
  ∀ s : State, s.scan.scanning = true → s.width ≤ 2048 → StoresSound s →
    let c := s.scan
    let ahead := fun x : Pos => c.walkRow < x.2 ∨ (c.walkRow = x.2 ∧ c.walkCol ≤ x.1)
    let rest := ((List.range s.height).flatMap fun y => (List.range s.width).map fun k => ((k, y) : Pos)).filter
      fun x => decide (c.walkRow < x.2) || (decide (c.walkRow = x.2) && decide (c.walkCol ≤ x.1))
    ∃ (lanes : Vector Lane 15) (pixels : Store PixelRecord),
      exec .frameBoundary s = exec .frameBoundary (((s.withLanes lanes).withPixels pixels).withScan
        { c with
          walkRow := s.height, walkCol := 0
          markPulses := c.markPulses +
            if c.markRow ≠ 0 ∧ c.markRow < s.height ∧ (c.walkRow < c.markRow ∨ c.walkRow = c.markRow ∧ c.walkCol = 0)
            then 1 else 0 }) ∧
      (∀ x : Pos, x.1 < s.width → x.2 < s.height → ahead x →
        (s.withPixels pixels).pixel x = (s.pixel x).stepped (s.driveCode (s.pixel x))) ∧
      (∀ x : Pos, x.1 < 2048 → ¬ (x.1 < s.width ∧ x.2 < s.height ∧ ahead x) →
        (s.withPixels pixels).pixel x = s.pixel x) ∧
      ∀ l : LaneId, (s.withLanes lanes).lane l =
        { s.lane l with saturated := min 65535 ((s.lane l).saturated + s.clipCount rest l) }

/-- RETIRE_VISIT: a record of the lane walked is written by the retire kind and released in the same visit, any other
is left (R9, R11, R129 to R131). -/
def Obligations.RetireVisit : Prop :=
  ∀ (s : State) (w : RetireWalk) (x : Pos), s.retire = some w → w.pos = some x →
    let L := s.lane w.lane
    let r := s.pixel x
    let len := (s.recipe L.finalMode L.band r.shown r.target r.variant).length
    let walked := some { w with pos := L.rect.nextPos x }
    (r.lane ≠ some w.lane → exec .retireVisit s = .next ((s.withRetire walked).settle)) ∧
    (r.lane = some w.lane → StoresSound s → x.1 < 2048 → ∃ pixels,
      exec .retireVisit s = .next (((s.withPixels pixels).withRetire walked).settle) ∧
      (∀ y : Pos, y.1 < 2048 → y ≠ x → (s.withPixels pixels).pixel y = s.pixel y) ∧
      let written := (s.withPixels pixels).pixel x
      let reached : Prop := written = ⟨some r.target, none, 0, .n, r.residue,
        if w.clearing then 0 else min 15 (r.wear + w.cost)⟩
      let kept : Prop := written = ⟨r.shown, none, 0, .n, r.residue, r.wear⟩
      let lost : Prop := written = ⟨none, none, 0, .n, r.residue, r.wear⟩
      (L.kind = some .normal → reached) ∧ (L.kind = some .release → kept) ∧
      (L.kind = some .partialDrive → len ≤ L.frameIndex → reached) ∧
      (L.kind = some .partialDrive → L.frameIndex < len → L.frameIndex = 0 → kept) ∧
      (L.kind = some .partialDrive → L.frameIndex < len → 1 ≤ L.frameIndex → lost) ∧
      (L.kind = some .fault → len ≤ L.frameIndex → reached) ∧
      (L.kind = some .fault → L.frameIndex < len → lost))

/-- RETIRE_WALK_END: the done record when the lane reports, the lane at rest, a reconsideration, and the walk of the
next lane, which is how any walk starts (R128, R133, R134). -/
def Obligations.RetireWalkEnd : Prop :=
  (∀ (s : State) (w : RetireWalk) (o : UpdateOutcome), s.retire = some w → w.pos = none →
    (s.lane w.lane).outcome = some o →
    let L := s.lane w.lane
    let record : DoneRecord := ⟨L.tag, o, L.requestedMode, L.finalMode, L.promoted, L.stale,
      some ⟨L.band, L.frameIndex, L.claimed, L.busySkipped, L.zoneSkipped, L.unknownSkipped, L.saturated⟩⟩
    exec .retireWalkEnd s = .next
      (((((((if L.report then s.appendDone L.owner record else s).setLane w.lane Lane.rest).withRetireList
        (s.retireList.filter fun k => decide (k ≠ w.lane))).withRetire none).reconsider).startRetire).settle)) ∧
  ∀ s : State,
    (∀ l rest, s.retire = none → s.retireList = l :: rest → s.startRetire =
      let L := s.lane l
      let m := s.modeRecord L.finalMode
      s.withRetire (some ⟨l, some (L.rect.x0, L.rect.y0), m.clearing, m.cost⟩)) ∧
    (s.retire ≠ none ∨ s.retireList = [] → s.startRetire = s)

/-! ## The panel supply -/

/-- RAIL_GOOD, the park timer and the fall timer move the supply; RAIL_EN and the panel lines follow it (R146, R149 to
R152, R154, R157). -/
def Obligations.SupplyPhases : Prop :=
  ∀ s : State,
    let u := s.supply
    (u.state = .rising → exec .railGoodAsserted s = .next ((s.withSupply { u with
      state := .on, railGood := true, riseTimer := none, parkTimer := some u.parkDuration }).settle)) ∧
    (u.state ≠ .rising → exec .railGoodAsserted s = .next ((s.withSupply { u with railGood := true }).settle)) ∧
    (u.state ≠ .on → exec .railLost s = .next ((s.withSupply { u with railGood := false }).settle)) ∧
    (u.state = .on → u.parkTimer.isSome = true → exec .parkTimerExpiry s = .next ((s.withSupply { u with
      state := .falling, riseTimer := none, parkTimer := none, fallTimer := some u.fallDuration }).settle)) ∧
    (u.fallTimer.isSome = true → u.state = .falling ∨ u.state = .tripped →
      (s.armingList = [] → exec .fallTimerExpiry s =
        .next ((s.withSupply { u with state := .off, fallTimer := none }).settle)) ∧
      (s.armingList ≠ [] → u.railGood = false → exec .fallTimerExpiry s = .next ((s.withSupply { u with
        state := .rising, fallTimer := none, riseTimer := some u.riseDuration }).settle)) ∧
      (s.armingList ≠ [] → u.railGood = true → exec .fallTimerExpiry s = .next ((s.withSupply { u with
        state := .on, fallTimer := none, riseTimer := none, parkTimer := some u.parkDuration }).settle))) ∧
    (u.fallTimer.isSome = true → u.state = .halted →
      exec .fallTimerExpiry s = .next ((s.withSupply { u with fallTimer := none }).settle)) ∧
    (s.railEn = true ↔ u.state = .rising ∨ u.state = .on) ∧
    s.panelLines = match u.state with
      | .off => .highImpedance
      | .on => if s.scan.scanning then .row (s.scan.row.getD 0) else .holdAll
      | _ => .ground

/-- A trip, by RAIL_GOOD lost in ON or by the rise timer: with the recovery mark clear the RUNNING lanes retire FAULT and
the supply is TRIPPED; a pending frame-mark row comes into force (R123, R142, R153; Log 15). -/
def Obligations.Trip : Prop :=
  ∀ (s : State) (i : Instr) (cause : TripCause) (good : Bool),
    (i = .railLost ∧ s.supply.state = .on ∧ cause = .railLost ∧ good = false) ∨
    (i = .riseTimeout ∧ s.supply.state = .rising ∧ s.supply.riseTimer.isSome = true ∧ cause = .riseTimeout ∧
      good = s.supply.railGood) →
    s.supply.recovery = false →
    let running := laneIds.filter fun l => decide ((s.lane l).state = .running)
    let mark := s.scan.pendingMark.getD s.scan.markRow
    ∃ lanes : Vector Lane 15,
      (∀ l : LaneId, (s.withLanes lanes).lane l = if (s.lane l).state = .running then
        { s.lane l with state := .retiring, kind := some .fault, outcome := some .faulted } else s.lane l) ∧
      exec i s = .next ((((((((s.withLanes lanes).withRetireList (s.retireList ++ running)).withScan
        { s.scan with
          scanning := false, band := none, period := none, row := none, walkRow := 0, walkCol := 0
          markRow := mark, pendingMark := none }).withSupply
        { s.supply with
          state := .tripped, cause := cause, riseTimer := none, parkTimer := none, windDown := false
          fallTimer := some s.supply.fallDuration, recovery := true, railGood := good }).setPort .a
        { s.portA with flags := s.portA.flags ||| 0x020 }).setPort .b
        { s.portB with flags := s.portB.flags ||| 0x020 }).startRetire).settle)

/-- A trip that finds the recovery mark set halts the supply and ends every update not yet driven (R113, R123, R128,
R142, R156; Log 15). -/
def Obligations.Halt : Prop :=
  ∀ (s : State) (i : Instr) (cause : TripCause) (good : Bool),
    (i = .railLost ∧ s.supply.state = .on ∧ cause = .railLost ∧ good = false) ∨
    (i = .riseTimeout ∧ s.supply.state = .rising ∧ s.supply.riseTimer.isSome = true ∧ cause = .riseTimeout ∧
      good = s.supply.railGood) →
    s.supply.recovery = true → LanesSound s →
    let inState := fun st => laneIds.filter fun l => decide ((s.lane l).state = st)
    let mark := s.scan.pendingMark.getD s.scan.markRow
    let flagged := fun q : PortState => { q with flags := q.flags ||| 0x060 }
    let reported := s.surveyList.foldl (fun v l => if (s.lane l).report then v.appendDone (s.lane l).owner
      ⟨(s.lane l).tag, .faulted, (s.lane l).requestedMode, (s.lane l).requestedMode, false, false, none⟩ else v)
      ((s.setPort .a (flagged s.portA)).setPort .b (flagged s.portB))
    ∃ lanes : Vector Lane 15,
      (∀ l : LaneId, (s.withLanes lanes).lane l =
        let L := s.lane l
        match L.state with
        | .free | .retiring => L
        | .pending => Lane.rest
        | .survey => { (match s.survey with | some w => L.decided w.mode | none => L) with
            state := .retiring, kind := some .release, outcome := some .faulted }
        | .armed => { L with state := .retiring, kind := some .release, outcome := some .faulted }
        | .running => { L with state := .retiring, kind := some .fault, outcome := some .faulted }) ∧
      exec i s = .next (((((((((reported.withLanes lanes).withRetireList
        (s.retireList ++ inState .running ++ inState .survey ++ inState .armed)).withArmingList []).withSurveyList
        []).withSurvey none).withScan
        { s.scan with
          scanning := false, band := none, period := none, row := none, walkRow := 0, walkCol := 0
          markRow := mark, pendingMark := none }).withSupply
        { s.supply with
          state := .halted, cause := cause, riseTimer := none, parkTimer := none, windDown := false
          fallTimer := some s.supply.fallDuration, recovery := true, railGood := good }).startRetire).settle)

/-! ## The invariants -/

/-- The reset state is sound. -/
def Obligations.ResetSound : Prop := Sound State.reset

/-- Every step keeps both stores in canonical form and every record within its ranges, an unclaimed one with target 0
and variant N (R3, R10). -/
def Obligations.StepKeepsStores : Prop :=
  ∀ s t : State, StoresSound s → step s = .next t → StoresSound t

/-- Every step keeps the lanes, their lists, the engines, the scan and the supply in agreement, with no frame-mark row
pending while the scan is IDLE (R95, R96, R116, R119, R122, R128, R136, R147; Log 15). -/
def Obligations.StepKeepsLanes : Prop :=
  ∀ s t : State, LanesSound s → step s = .next t → LanesSound t

/-- Every step keeps the streams within 64 entries, the done queues within 16 records, the places within 24 and 16, and
held transactions to a geometry sweep, at most the first of a port a command (R59, R61, R74, R175). -/
def Obligations.StepKeepsQueues : Prop :=
  ∀ s t : State, QueuesSound s → step s = .next t → QueuesSound t

/-- Every step keeps the Temperature Unit and the table in agreement: the band is NONE exactly while it must be (R24,
R39). -/
def Obligations.StepKeepsTemperature : Prop :=
  ∀ s t : State, TemperatureSound s → step s = .next t → TemperatureSound t

/-- From a sound state no step gives a port two requests with one tag (R73), every step leaves all that holds a place of
the panel inside the geometry in force (R52, R55, R57, R59, R67, R70, R86), and the part is in SLEEP only while both
consents are set, all lanes are FREE, the supply is OFF and no zone is active (R13, R67, R165). -/
def Obligations.StepKeepsPlaces : Prop :=
  (∀ s t : State, Sound s → step s = .next t → TagsSound t) ∧
  (∀ s t : State, Sound s → step s = .next t → GeometrySound t) ∧
  (∀ s t : State, Sound s → step s = .next t → QuietSound t)

/-- From a sound state every claim names a lane that holds claims, and until its retire walk the claims number the
lane's claimed count (R5, R6); no two HOLD lanes in use share a pixel and the busy skipped count of a HOLD lane is 0
(R115); once its survey has ended the lane of a claimed UNKNOWN pixel has a final mode that accepts unknown (R7). -/
def Obligations.StepKeepsClaims : Prop :=
  ∀ s t : State, Sound s → step s = .next t → ClaimsSound t
end

