-- ==== Sys2Proof/Laws/State.lean ====
section
/-! SUPPORT. What each setter of the state leaves in each field, so that no proof unfolds a record update: one lemma
per field per setter, and the same for one port, one lane and one zone.
-/

namespace Sys2Proof.Machine

/-! ## Fields -/

@[simp] theorem State.withGeometry_width (s : State) (w h : Nat) : (s.withGeometry w h).width = w := rfl
@[simp] theorem State.withGeometry_height (s : State) (w h : Nat) : (s.withGeometry w h).height = h := rfl
@[simp] theorem State.withGeometry_image (s : State) (w h : Nat) : (s.withGeometry w h).image = s.image := rfl
@[simp] theorem State.withGeometry_pixels (s : State) (w h : Nat) : (s.withGeometry w h).pixels = s.pixels := rfl
@[simp] theorem State.withGeometry_portA (s : State) (w h : Nat) : (s.withGeometry w h).portA = s.portA := rfl
@[simp] theorem State.withGeometry_portB (s : State) (w h : Nat) : (s.withGeometry w h).portB = s.portB := rfl
@[simp] theorem State.withGeometry_lastGrant (s : State) (w h : Nat) : (s.withGeometry w h).lastGrant = s.lastGrant := rfl
@[simp] theorem State.withGeometry_table (s : State) (w h : Nat) : (s.withGeometry w h).table = s.table := rfl
@[simp] theorem State.withGeometry_temp (s : State) (w h : Nat) : (s.withGeometry w h).temp = s.temp := rfl
@[simp] theorem State.withGeometry_queue (s : State) (w h : Nat) : (s.withGeometry w h).queue = s.queue := rfl
@[simp] theorem State.withGeometry_zones (s : State) (w h : Nat) : (s.withGeometry w h).zones = s.zones := rfl
@[simp] theorem State.withGeometry_zoneDuration (s : State) (w h : Nat) : (s.withGeometry w h).zoneDuration = s.zoneDuration := rfl
@[simp] theorem State.withGeometry_lanes (s : State) (w h : Nat) : (s.withGeometry w h).lanes = s.lanes := rfl
@[simp] theorem State.withGeometry_surveyList (s : State) (w h : Nat) : (s.withGeometry w h).surveyList = s.surveyList := rfl
@[simp] theorem State.withGeometry_survey (s : State) (w h : Nat) : (s.withGeometry w h).survey = s.survey := rfl
@[simp] theorem State.withGeometry_residueLimit (s : State) (w h : Nat) : (s.withGeometry w h).residueLimit = s.residueLimit := rfl
@[simp] theorem State.withGeometry_wearLimit (s : State) (w h : Nat) : (s.withGeometry w h).wearLimit = s.wearLimit := rfl
@[simp] theorem State.withGeometry_armingList (s : State) (w h : Nat) : (s.withGeometry w h).armingList = s.armingList := rfl
@[simp] theorem State.withGeometry_retireList (s : State) (w h : Nat) : (s.withGeometry w h).retireList = s.retireList := rfl
@[simp] theorem State.withGeometry_retire (s : State) (w h : Nat) : (s.withGeometry w h).retire = s.retire := rfl
@[simp] theorem State.withGeometry_scan (s : State) (w h : Nat) : (s.withGeometry w h).scan = s.scan := rfl
@[simp] theorem State.withGeometry_supply (s : State) (w h : Nat) : (s.withGeometry w h).supply = s.supply := rfl
@[simp] theorem State.withGeometry_power (s : State) (w h : Nat) : (s.withGeometry w h).power = s.power := rfl
@[simp] theorem State.withGeometry_pending (s : State) (w h : Nat) : (s.withGeometry w h).pending = s.pending := rfl

@[simp] theorem State.withImage_width (s : State) (v : Store Level) : (s.withImage v).width = s.width := rfl
@[simp] theorem State.withImage_height (s : State) (v : Store Level) : (s.withImage v).height = s.height := rfl
@[simp] theorem State.withImage_image (s : State) (v : Store Level) : (s.withImage v).image = v := rfl
@[simp] theorem State.withImage_pixels (s : State) (v : Store Level) : (s.withImage v).pixels = s.pixels := rfl
@[simp] theorem State.withImage_portA (s : State) (v : Store Level) : (s.withImage v).portA = s.portA := rfl
@[simp] theorem State.withImage_portB (s : State) (v : Store Level) : (s.withImage v).portB = s.portB := rfl
@[simp] theorem State.withImage_lastGrant (s : State) (v : Store Level) : (s.withImage v).lastGrant = s.lastGrant := rfl
@[simp] theorem State.withImage_table (s : State) (v : Store Level) : (s.withImage v).table = s.table := rfl
@[simp] theorem State.withImage_temp (s : State) (v : Store Level) : (s.withImage v).temp = s.temp := rfl
@[simp] theorem State.withImage_queue (s : State) (v : Store Level) : (s.withImage v).queue = s.queue := rfl
@[simp] theorem State.withImage_zones (s : State) (v : Store Level) : (s.withImage v).zones = s.zones := rfl
@[simp] theorem State.withImage_zoneDuration (s : State) (v : Store Level) : (s.withImage v).zoneDuration = s.zoneDuration := rfl
@[simp] theorem State.withImage_lanes (s : State) (v : Store Level) : (s.withImage v).lanes = s.lanes := rfl
@[simp] theorem State.withImage_surveyList (s : State) (v : Store Level) : (s.withImage v).surveyList = s.surveyList := rfl
@[simp] theorem State.withImage_survey (s : State) (v : Store Level) : (s.withImage v).survey = s.survey := rfl
@[simp] theorem State.withImage_residueLimit (s : State) (v : Store Level) : (s.withImage v).residueLimit = s.residueLimit := rfl
@[simp] theorem State.withImage_wearLimit (s : State) (v : Store Level) : (s.withImage v).wearLimit = s.wearLimit := rfl
@[simp] theorem State.withImage_armingList (s : State) (v : Store Level) : (s.withImage v).armingList = s.armingList := rfl
@[simp] theorem State.withImage_retireList (s : State) (v : Store Level) : (s.withImage v).retireList = s.retireList := rfl
@[simp] theorem State.withImage_retire (s : State) (v : Store Level) : (s.withImage v).retire = s.retire := rfl
@[simp] theorem State.withImage_scan (s : State) (v : Store Level) : (s.withImage v).scan = s.scan := rfl
@[simp] theorem State.withImage_supply (s : State) (v : Store Level) : (s.withImage v).supply = s.supply := rfl
@[simp] theorem State.withImage_power (s : State) (v : Store Level) : (s.withImage v).power = s.power := rfl
@[simp] theorem State.withImage_pending (s : State) (v : Store Level) : (s.withImage v).pending = s.pending := rfl

@[simp] theorem State.withPixels_width (s : State) (v : Store PixelRecord) : (s.withPixels v).width = s.width := rfl
@[simp] theorem State.withPixels_height (s : State) (v : Store PixelRecord) : (s.withPixels v).height = s.height := rfl
@[simp] theorem State.withPixels_image (s : State) (v : Store PixelRecord) : (s.withPixels v).image = s.image := rfl
@[simp] theorem State.withPixels_pixels (s : State) (v : Store PixelRecord) : (s.withPixels v).pixels = v := rfl
@[simp] theorem State.withPixels_portA (s : State) (v : Store PixelRecord) : (s.withPixels v).portA = s.portA := rfl
@[simp] theorem State.withPixels_portB (s : State) (v : Store PixelRecord) : (s.withPixels v).portB = s.portB := rfl
@[simp] theorem State.withPixels_lastGrant (s : State) (v : Store PixelRecord) : (s.withPixels v).lastGrant = s.lastGrant := rfl
@[simp] theorem State.withPixels_table (s : State) (v : Store PixelRecord) : (s.withPixels v).table = s.table := rfl
@[simp] theorem State.withPixels_temp (s : State) (v : Store PixelRecord) : (s.withPixels v).temp = s.temp := rfl
@[simp] theorem State.withPixels_queue (s : State) (v : Store PixelRecord) : (s.withPixels v).queue = s.queue := rfl
@[simp] theorem State.withPixels_zones (s : State) (v : Store PixelRecord) : (s.withPixels v).zones = s.zones := rfl
@[simp] theorem State.withPixels_zoneDuration (s : State) (v : Store PixelRecord) : (s.withPixels v).zoneDuration = s.zoneDuration := rfl
@[simp] theorem State.withPixels_lanes (s : State) (v : Store PixelRecord) : (s.withPixels v).lanes = s.lanes := rfl
@[simp] theorem State.withPixels_surveyList (s : State) (v : Store PixelRecord) : (s.withPixels v).surveyList = s.surveyList := rfl
@[simp] theorem State.withPixels_survey (s : State) (v : Store PixelRecord) : (s.withPixels v).survey = s.survey := rfl
@[simp] theorem State.withPixels_residueLimit (s : State) (v : Store PixelRecord) : (s.withPixels v).residueLimit = s.residueLimit := rfl
@[simp] theorem State.withPixels_wearLimit (s : State) (v : Store PixelRecord) : (s.withPixels v).wearLimit = s.wearLimit := rfl
@[simp] theorem State.withPixels_armingList (s : State) (v : Store PixelRecord) : (s.withPixels v).armingList = s.armingList := rfl
@[simp] theorem State.withPixels_retireList (s : State) (v : Store PixelRecord) : (s.withPixels v).retireList = s.retireList := rfl
@[simp] theorem State.withPixels_retire (s : State) (v : Store PixelRecord) : (s.withPixels v).retire = s.retire := rfl
@[simp] theorem State.withPixels_scan (s : State) (v : Store PixelRecord) : (s.withPixels v).scan = s.scan := rfl
@[simp] theorem State.withPixels_supply (s : State) (v : Store PixelRecord) : (s.withPixels v).supply = s.supply := rfl
@[simp] theorem State.withPixels_power (s : State) (v : Store PixelRecord) : (s.withPixels v).power = s.power := rfl
@[simp] theorem State.withPixels_pending (s : State) (v : Store PixelRecord) : (s.withPixels v).pending = s.pending := rfl

@[simp] theorem State.withLastGrant_width (s : State) (v : Requester) : (s.withLastGrant v).width = s.width := rfl
@[simp] theorem State.withLastGrant_height (s : State) (v : Requester) : (s.withLastGrant v).height = s.height := rfl
@[simp] theorem State.withLastGrant_image (s : State) (v : Requester) : (s.withLastGrant v).image = s.image := rfl
@[simp] theorem State.withLastGrant_pixels (s : State) (v : Requester) : (s.withLastGrant v).pixels = s.pixels := rfl
@[simp] theorem State.withLastGrant_portA (s : State) (v : Requester) : (s.withLastGrant v).portA = s.portA := rfl
@[simp] theorem State.withLastGrant_portB (s : State) (v : Requester) : (s.withLastGrant v).portB = s.portB := rfl
@[simp] theorem State.withLastGrant_lastGrant (s : State) (v : Requester) : (s.withLastGrant v).lastGrant = v := rfl
@[simp] theorem State.withLastGrant_table (s : State) (v : Requester) : (s.withLastGrant v).table = s.table := rfl
@[simp] theorem State.withLastGrant_temp (s : State) (v : Requester) : (s.withLastGrant v).temp = s.temp := rfl
@[simp] theorem State.withLastGrant_queue (s : State) (v : Requester) : (s.withLastGrant v).queue = s.queue := rfl
@[simp] theorem State.withLastGrant_zones (s : State) (v : Requester) : (s.withLastGrant v).zones = s.zones := rfl
@[simp] theorem State.withLastGrant_zoneDuration (s : State) (v : Requester) : (s.withLastGrant v).zoneDuration = s.zoneDuration := rfl
@[simp] theorem State.withLastGrant_lanes (s : State) (v : Requester) : (s.withLastGrant v).lanes = s.lanes := rfl
@[simp] theorem State.withLastGrant_surveyList (s : State) (v : Requester) : (s.withLastGrant v).surveyList = s.surveyList := rfl
@[simp] theorem State.withLastGrant_survey (s : State) (v : Requester) : (s.withLastGrant v).survey = s.survey := rfl
@[simp] theorem State.withLastGrant_residueLimit (s : State) (v : Requester) : (s.withLastGrant v).residueLimit = s.residueLimit := rfl
@[simp] theorem State.withLastGrant_wearLimit (s : State) (v : Requester) : (s.withLastGrant v).wearLimit = s.wearLimit := rfl
@[simp] theorem State.withLastGrant_armingList (s : State) (v : Requester) : (s.withLastGrant v).armingList = s.armingList := rfl
@[simp] theorem State.withLastGrant_retireList (s : State) (v : Requester) : (s.withLastGrant v).retireList = s.retireList := rfl
@[simp] theorem State.withLastGrant_retire (s : State) (v : Requester) : (s.withLastGrant v).retire = s.retire := rfl
@[simp] theorem State.withLastGrant_scan (s : State) (v : Requester) : (s.withLastGrant v).scan = s.scan := rfl
@[simp] theorem State.withLastGrant_supply (s : State) (v : Requester) : (s.withLastGrant v).supply = s.supply := rfl
@[simp] theorem State.withLastGrant_power (s : State) (v : Requester) : (s.withLastGrant v).power = s.power := rfl
@[simp] theorem State.withLastGrant_pending (s : State) (v : Requester) : (s.withLastGrant v).pending = s.pending := rfl

@[simp] theorem State.withTable_width (s : State) (v : TableUnit) : (s.withTable v).width = s.width := rfl
@[simp] theorem State.withTable_height (s : State) (v : TableUnit) : (s.withTable v).height = s.height := rfl
@[simp] theorem State.withTable_image (s : State) (v : TableUnit) : (s.withTable v).image = s.image := rfl
@[simp] theorem State.withTable_pixels (s : State) (v : TableUnit) : (s.withTable v).pixels = s.pixels := rfl
@[simp] theorem State.withTable_portA (s : State) (v : TableUnit) : (s.withTable v).portA = s.portA := rfl
@[simp] theorem State.withTable_portB (s : State) (v : TableUnit) : (s.withTable v).portB = s.portB := rfl
@[simp] theorem State.withTable_lastGrant (s : State) (v : TableUnit) : (s.withTable v).lastGrant = s.lastGrant := rfl
@[simp] theorem State.withTable_table (s : State) (v : TableUnit) : (s.withTable v).table = v := rfl
@[simp] theorem State.withTable_temp (s : State) (v : TableUnit) : (s.withTable v).temp = s.temp := rfl
@[simp] theorem State.withTable_queue (s : State) (v : TableUnit) : (s.withTable v).queue = s.queue := rfl
@[simp] theorem State.withTable_zones (s : State) (v : TableUnit) : (s.withTable v).zones = s.zones := rfl
@[simp] theorem State.withTable_zoneDuration (s : State) (v : TableUnit) : (s.withTable v).zoneDuration = s.zoneDuration := rfl
@[simp] theorem State.withTable_lanes (s : State) (v : TableUnit) : (s.withTable v).lanes = s.lanes := rfl
@[simp] theorem State.withTable_surveyList (s : State) (v : TableUnit) : (s.withTable v).surveyList = s.surveyList := rfl
@[simp] theorem State.withTable_survey (s : State) (v : TableUnit) : (s.withTable v).survey = s.survey := rfl
@[simp] theorem State.withTable_residueLimit (s : State) (v : TableUnit) : (s.withTable v).residueLimit = s.residueLimit := rfl
@[simp] theorem State.withTable_wearLimit (s : State) (v : TableUnit) : (s.withTable v).wearLimit = s.wearLimit := rfl
@[simp] theorem State.withTable_armingList (s : State) (v : TableUnit) : (s.withTable v).armingList = s.armingList := rfl
@[simp] theorem State.withTable_retireList (s : State) (v : TableUnit) : (s.withTable v).retireList = s.retireList := rfl
@[simp] theorem State.withTable_retire (s : State) (v : TableUnit) : (s.withTable v).retire = s.retire := rfl
@[simp] theorem State.withTable_scan (s : State) (v : TableUnit) : (s.withTable v).scan = s.scan := rfl
@[simp] theorem State.withTable_supply (s : State) (v : TableUnit) : (s.withTable v).supply = s.supply := rfl
@[simp] theorem State.withTable_power (s : State) (v : TableUnit) : (s.withTable v).power = s.power := rfl
@[simp] theorem State.withTable_pending (s : State) (v : TableUnit) : (s.withTable v).pending = s.pending := rfl

@[simp] theorem State.withTemp_width (s : State) (v : TempUnit) : (s.withTemp v).width = s.width := rfl
@[simp] theorem State.withTemp_height (s : State) (v : TempUnit) : (s.withTemp v).height = s.height := rfl
@[simp] theorem State.withTemp_image (s : State) (v : TempUnit) : (s.withTemp v).image = s.image := rfl
@[simp] theorem State.withTemp_pixels (s : State) (v : TempUnit) : (s.withTemp v).pixels = s.pixels := rfl
@[simp] theorem State.withTemp_portA (s : State) (v : TempUnit) : (s.withTemp v).portA = s.portA := rfl
@[simp] theorem State.withTemp_portB (s : State) (v : TempUnit) : (s.withTemp v).portB = s.portB := rfl
@[simp] theorem State.withTemp_lastGrant (s : State) (v : TempUnit) : (s.withTemp v).lastGrant = s.lastGrant := rfl
@[simp] theorem State.withTemp_table (s : State) (v : TempUnit) : (s.withTemp v).table = s.table := rfl
@[simp] theorem State.withTemp_temp (s : State) (v : TempUnit) : (s.withTemp v).temp = v := rfl
@[simp] theorem State.withTemp_queue (s : State) (v : TempUnit) : (s.withTemp v).queue = s.queue := rfl
@[simp] theorem State.withTemp_zones (s : State) (v : TempUnit) : (s.withTemp v).zones = s.zones := rfl
@[simp] theorem State.withTemp_zoneDuration (s : State) (v : TempUnit) : (s.withTemp v).zoneDuration = s.zoneDuration := rfl
@[simp] theorem State.withTemp_lanes (s : State) (v : TempUnit) : (s.withTemp v).lanes = s.lanes := rfl
@[simp] theorem State.withTemp_surveyList (s : State) (v : TempUnit) : (s.withTemp v).surveyList = s.surveyList := rfl
@[simp] theorem State.withTemp_survey (s : State) (v : TempUnit) : (s.withTemp v).survey = s.survey := rfl
@[simp] theorem State.withTemp_residueLimit (s : State) (v : TempUnit) : (s.withTemp v).residueLimit = s.residueLimit := rfl
@[simp] theorem State.withTemp_wearLimit (s : State) (v : TempUnit) : (s.withTemp v).wearLimit = s.wearLimit := rfl
@[simp] theorem State.withTemp_armingList (s : State) (v : TempUnit) : (s.withTemp v).armingList = s.armingList := rfl
@[simp] theorem State.withTemp_retireList (s : State) (v : TempUnit) : (s.withTemp v).retireList = s.retireList := rfl
@[simp] theorem State.withTemp_retire (s : State) (v : TempUnit) : (s.withTemp v).retire = s.retire := rfl
@[simp] theorem State.withTemp_scan (s : State) (v : TempUnit) : (s.withTemp v).scan = s.scan := rfl
@[simp] theorem State.withTemp_supply (s : State) (v : TempUnit) : (s.withTemp v).supply = s.supply := rfl
@[simp] theorem State.withTemp_power (s : State) (v : TempUnit) : (s.withTemp v).power = s.power := rfl
@[simp] theorem State.withTemp_pending (s : State) (v : TempUnit) : (s.withTemp v).pending = s.pending := rfl

@[simp] theorem State.withQueue_width (s : State) (v : List Request) : (s.withQueue v).width = s.width := rfl
@[simp] theorem State.withQueue_height (s : State) (v : List Request) : (s.withQueue v).height = s.height := rfl
@[simp] theorem State.withQueue_image (s : State) (v : List Request) : (s.withQueue v).image = s.image := rfl
@[simp] theorem State.withQueue_pixels (s : State) (v : List Request) : (s.withQueue v).pixels = s.pixels := rfl
@[simp] theorem State.withQueue_portA (s : State) (v : List Request) : (s.withQueue v).portA = s.portA := rfl
@[simp] theorem State.withQueue_portB (s : State) (v : List Request) : (s.withQueue v).portB = s.portB := rfl
@[simp] theorem State.withQueue_lastGrant (s : State) (v : List Request) : (s.withQueue v).lastGrant = s.lastGrant := rfl
@[simp] theorem State.withQueue_table (s : State) (v : List Request) : (s.withQueue v).table = s.table := rfl
@[simp] theorem State.withQueue_temp (s : State) (v : List Request) : (s.withQueue v).temp = s.temp := rfl
@[simp] theorem State.withQueue_queue (s : State) (v : List Request) : (s.withQueue v).queue = v := rfl
@[simp] theorem State.withQueue_zones (s : State) (v : List Request) : (s.withQueue v).zones = s.zones := rfl
@[simp] theorem State.withQueue_zoneDuration (s : State) (v : List Request) : (s.withQueue v).zoneDuration = s.zoneDuration := rfl
@[simp] theorem State.withQueue_lanes (s : State) (v : List Request) : (s.withQueue v).lanes = s.lanes := rfl
@[simp] theorem State.withQueue_surveyList (s : State) (v : List Request) : (s.withQueue v).surveyList = s.surveyList := rfl
@[simp] theorem State.withQueue_survey (s : State) (v : List Request) : (s.withQueue v).survey = s.survey := rfl
@[simp] theorem State.withQueue_residueLimit (s : State) (v : List Request) : (s.withQueue v).residueLimit = s.residueLimit := rfl
@[simp] theorem State.withQueue_wearLimit (s : State) (v : List Request) : (s.withQueue v).wearLimit = s.wearLimit := rfl
@[simp] theorem State.withQueue_armingList (s : State) (v : List Request) : (s.withQueue v).armingList = s.armingList := rfl
@[simp] theorem State.withQueue_retireList (s : State) (v : List Request) : (s.withQueue v).retireList = s.retireList := rfl
@[simp] theorem State.withQueue_retire (s : State) (v : List Request) : (s.withQueue v).retire = s.retire := rfl
@[simp] theorem State.withQueue_scan (s : State) (v : List Request) : (s.withQueue v).scan = s.scan := rfl
@[simp] theorem State.withQueue_supply (s : State) (v : List Request) : (s.withQueue v).supply = s.supply := rfl
@[simp] theorem State.withQueue_power (s : State) (v : List Request) : (s.withQueue v).power = s.power := rfl
@[simp] theorem State.withQueue_pending (s : State) (v : List Request) : (s.withQueue v).pending = s.pending := rfl

@[simp] theorem State.withZones_width (s : State) (v : Vector (Option Zone) 4) : (s.withZones v).width = s.width := rfl
@[simp] theorem State.withZones_height (s : State) (v : Vector (Option Zone) 4) : (s.withZones v).height = s.height := rfl
@[simp] theorem State.withZones_image (s : State) (v : Vector (Option Zone) 4) : (s.withZones v).image = s.image := rfl
@[simp] theorem State.withZones_pixels (s : State) (v : Vector (Option Zone) 4) : (s.withZones v).pixels = s.pixels := rfl
@[simp] theorem State.withZones_portA (s : State) (v : Vector (Option Zone) 4) : (s.withZones v).portA = s.portA := rfl
@[simp] theorem State.withZones_portB (s : State) (v : Vector (Option Zone) 4) : (s.withZones v).portB = s.portB := rfl
@[simp] theorem State.withZones_lastGrant (s : State) (v : Vector (Option Zone) 4) : (s.withZones v).lastGrant = s.lastGrant := rfl
@[simp] theorem State.withZones_table (s : State) (v : Vector (Option Zone) 4) : (s.withZones v).table = s.table := rfl
@[simp] theorem State.withZones_temp (s : State) (v : Vector (Option Zone) 4) : (s.withZones v).temp = s.temp := rfl
@[simp] theorem State.withZones_queue (s : State) (v : Vector (Option Zone) 4) : (s.withZones v).queue = s.queue := rfl
@[simp] theorem State.withZones_zones (s : State) (v : Vector (Option Zone) 4) : (s.withZones v).zones = v := rfl
@[simp] theorem State.withZones_zoneDuration (s : State) (v : Vector (Option Zone) 4) : (s.withZones v).zoneDuration = s.zoneDuration := rfl
@[simp] theorem State.withZones_lanes (s : State) (v : Vector (Option Zone) 4) : (s.withZones v).lanes = s.lanes := rfl
@[simp] theorem State.withZones_surveyList (s : State) (v : Vector (Option Zone) 4) : (s.withZones v).surveyList = s.surveyList := rfl
@[simp] theorem State.withZones_survey (s : State) (v : Vector (Option Zone) 4) : (s.withZones v).survey = s.survey := rfl
@[simp] theorem State.withZones_residueLimit (s : State) (v : Vector (Option Zone) 4) : (s.withZones v).residueLimit = s.residueLimit := rfl
@[simp] theorem State.withZones_wearLimit (s : State) (v : Vector (Option Zone) 4) : (s.withZones v).wearLimit = s.wearLimit := rfl
@[simp] theorem State.withZones_armingList (s : State) (v : Vector (Option Zone) 4) : (s.withZones v).armingList = s.armingList := rfl
@[simp] theorem State.withZones_retireList (s : State) (v : Vector (Option Zone) 4) : (s.withZones v).retireList = s.retireList := rfl
@[simp] theorem State.withZones_retire (s : State) (v : Vector (Option Zone) 4) : (s.withZones v).retire = s.retire := rfl
@[simp] theorem State.withZones_scan (s : State) (v : Vector (Option Zone) 4) : (s.withZones v).scan = s.scan := rfl
@[simp] theorem State.withZones_supply (s : State) (v : Vector (Option Zone) 4) : (s.withZones v).supply = s.supply := rfl
@[simp] theorem State.withZones_power (s : State) (v : Vector (Option Zone) 4) : (s.withZones v).power = s.power := rfl
@[simp] theorem State.withZones_pending (s : State) (v : Vector (Option Zone) 4) : (s.withZones v).pending = s.pending := rfl

@[simp] theorem State.withZoneDuration_width (s : State) (v : Nat) : (s.withZoneDuration v).width = s.width := rfl
@[simp] theorem State.withZoneDuration_height (s : State) (v : Nat) : (s.withZoneDuration v).height = s.height := rfl
@[simp] theorem State.withZoneDuration_image (s : State) (v : Nat) : (s.withZoneDuration v).image = s.image := rfl
@[simp] theorem State.withZoneDuration_pixels (s : State) (v : Nat) : (s.withZoneDuration v).pixels = s.pixels := rfl
@[simp] theorem State.withZoneDuration_portA (s : State) (v : Nat) : (s.withZoneDuration v).portA = s.portA := rfl
@[simp] theorem State.withZoneDuration_portB (s : State) (v : Nat) : (s.withZoneDuration v).portB = s.portB := rfl
@[simp] theorem State.withZoneDuration_lastGrant (s : State) (v : Nat) : (s.withZoneDuration v).lastGrant = s.lastGrant := rfl
@[simp] theorem State.withZoneDuration_table (s : State) (v : Nat) : (s.withZoneDuration v).table = s.table := rfl
@[simp] theorem State.withZoneDuration_temp (s : State) (v : Nat) : (s.withZoneDuration v).temp = s.temp := rfl
@[simp] theorem State.withZoneDuration_queue (s : State) (v : Nat) : (s.withZoneDuration v).queue = s.queue := rfl
@[simp] theorem State.withZoneDuration_zones (s : State) (v : Nat) : (s.withZoneDuration v).zones = s.zones := rfl
@[simp] theorem State.withZoneDuration_zoneDuration (s : State) (v : Nat) : (s.withZoneDuration v).zoneDuration = v := rfl
@[simp] theorem State.withZoneDuration_lanes (s : State) (v : Nat) : (s.withZoneDuration v).lanes = s.lanes := rfl
@[simp] theorem State.withZoneDuration_surveyList (s : State) (v : Nat) : (s.withZoneDuration v).surveyList = s.surveyList := rfl
@[simp] theorem State.withZoneDuration_survey (s : State) (v : Nat) : (s.withZoneDuration v).survey = s.survey := rfl
@[simp] theorem State.withZoneDuration_residueLimit (s : State) (v : Nat) : (s.withZoneDuration v).residueLimit = s.residueLimit := rfl
@[simp] theorem State.withZoneDuration_wearLimit (s : State) (v : Nat) : (s.withZoneDuration v).wearLimit = s.wearLimit := rfl
@[simp] theorem State.withZoneDuration_armingList (s : State) (v : Nat) : (s.withZoneDuration v).armingList = s.armingList := rfl
@[simp] theorem State.withZoneDuration_retireList (s : State) (v : Nat) : (s.withZoneDuration v).retireList = s.retireList := rfl
@[simp] theorem State.withZoneDuration_retire (s : State) (v : Nat) : (s.withZoneDuration v).retire = s.retire := rfl
@[simp] theorem State.withZoneDuration_scan (s : State) (v : Nat) : (s.withZoneDuration v).scan = s.scan := rfl
@[simp] theorem State.withZoneDuration_supply (s : State) (v : Nat) : (s.withZoneDuration v).supply = s.supply := rfl
@[simp] theorem State.withZoneDuration_power (s : State) (v : Nat) : (s.withZoneDuration v).power = s.power := rfl
@[simp] theorem State.withZoneDuration_pending (s : State) (v : Nat) : (s.withZoneDuration v).pending = s.pending := rfl

@[simp] theorem State.withLanes_width (s : State) (v : Vector Lane 15) : (s.withLanes v).width = s.width := rfl
@[simp] theorem State.withLanes_height (s : State) (v : Vector Lane 15) : (s.withLanes v).height = s.height := rfl
@[simp] theorem State.withLanes_image (s : State) (v : Vector Lane 15) : (s.withLanes v).image = s.image := rfl
@[simp] theorem State.withLanes_pixels (s : State) (v : Vector Lane 15) : (s.withLanes v).pixels = s.pixels := rfl
@[simp] theorem State.withLanes_portA (s : State) (v : Vector Lane 15) : (s.withLanes v).portA = s.portA := rfl
@[simp] theorem State.withLanes_portB (s : State) (v : Vector Lane 15) : (s.withLanes v).portB = s.portB := rfl
@[simp] theorem State.withLanes_lastGrant (s : State) (v : Vector Lane 15) : (s.withLanes v).lastGrant = s.lastGrant := rfl
@[simp] theorem State.withLanes_table (s : State) (v : Vector Lane 15) : (s.withLanes v).table = s.table := rfl
@[simp] theorem State.withLanes_temp (s : State) (v : Vector Lane 15) : (s.withLanes v).temp = s.temp := rfl
@[simp] theorem State.withLanes_queue (s : State) (v : Vector Lane 15) : (s.withLanes v).queue = s.queue := rfl
@[simp] theorem State.withLanes_zones (s : State) (v : Vector Lane 15) : (s.withLanes v).zones = s.zones := rfl
@[simp] theorem State.withLanes_zoneDuration (s : State) (v : Vector Lane 15) : (s.withLanes v).zoneDuration = s.zoneDuration := rfl
@[simp] theorem State.withLanes_lanes (s : State) (v : Vector Lane 15) : (s.withLanes v).lanes = v := rfl
@[simp] theorem State.withLanes_surveyList (s : State) (v : Vector Lane 15) : (s.withLanes v).surveyList = s.surveyList := rfl
@[simp] theorem State.withLanes_survey (s : State) (v : Vector Lane 15) : (s.withLanes v).survey = s.survey := rfl
@[simp] theorem State.withLanes_residueLimit (s : State) (v : Vector Lane 15) : (s.withLanes v).residueLimit = s.residueLimit := rfl
@[simp] theorem State.withLanes_wearLimit (s : State) (v : Vector Lane 15) : (s.withLanes v).wearLimit = s.wearLimit := rfl
@[simp] theorem State.withLanes_armingList (s : State) (v : Vector Lane 15) : (s.withLanes v).armingList = s.armingList := rfl
@[simp] theorem State.withLanes_retireList (s : State) (v : Vector Lane 15) : (s.withLanes v).retireList = s.retireList := rfl
@[simp] theorem State.withLanes_retire (s : State) (v : Vector Lane 15) : (s.withLanes v).retire = s.retire := rfl
@[simp] theorem State.withLanes_scan (s : State) (v : Vector Lane 15) : (s.withLanes v).scan = s.scan := rfl
@[simp] theorem State.withLanes_supply (s : State) (v : Vector Lane 15) : (s.withLanes v).supply = s.supply := rfl
@[simp] theorem State.withLanes_power (s : State) (v : Vector Lane 15) : (s.withLanes v).power = s.power := rfl
@[simp] theorem State.withLanes_pending (s : State) (v : Vector Lane 15) : (s.withLanes v).pending = s.pending := rfl

@[simp] theorem State.withSurveyList_width (s : State) (v : List LaneId) : (s.withSurveyList v).width = s.width := rfl
@[simp] theorem State.withSurveyList_height (s : State) (v : List LaneId) : (s.withSurveyList v).height = s.height := rfl
@[simp] theorem State.withSurveyList_image (s : State) (v : List LaneId) : (s.withSurveyList v).image = s.image := rfl
@[simp] theorem State.withSurveyList_pixels (s : State) (v : List LaneId) : (s.withSurveyList v).pixels = s.pixels := rfl
@[simp] theorem State.withSurveyList_portA (s : State) (v : List LaneId) : (s.withSurveyList v).portA = s.portA := rfl
@[simp] theorem State.withSurveyList_portB (s : State) (v : List LaneId) : (s.withSurveyList v).portB = s.portB := rfl
@[simp] theorem State.withSurveyList_lastGrant (s : State) (v : List LaneId) : (s.withSurveyList v).lastGrant = s.lastGrant := rfl
@[simp] theorem State.withSurveyList_table (s : State) (v : List LaneId) : (s.withSurveyList v).table = s.table := rfl
@[simp] theorem State.withSurveyList_temp (s : State) (v : List LaneId) : (s.withSurveyList v).temp = s.temp := rfl
@[simp] theorem State.withSurveyList_queue (s : State) (v : List LaneId) : (s.withSurveyList v).queue = s.queue := rfl
@[simp] theorem State.withSurveyList_zones (s : State) (v : List LaneId) : (s.withSurveyList v).zones = s.zones := rfl
@[simp] theorem State.withSurveyList_zoneDuration (s : State) (v : List LaneId) : (s.withSurveyList v).zoneDuration = s.zoneDuration := rfl
@[simp] theorem State.withSurveyList_lanes (s : State) (v : List LaneId) : (s.withSurveyList v).lanes = s.lanes := rfl
@[simp] theorem State.withSurveyList_surveyList (s : State) (v : List LaneId) : (s.withSurveyList v).surveyList = v := rfl
@[simp] theorem State.withSurveyList_survey (s : State) (v : List LaneId) : (s.withSurveyList v).survey = s.survey := rfl
@[simp] theorem State.withSurveyList_residueLimit (s : State) (v : List LaneId) : (s.withSurveyList v).residueLimit = s.residueLimit := rfl
@[simp] theorem State.withSurveyList_wearLimit (s : State) (v : List LaneId) : (s.withSurveyList v).wearLimit = s.wearLimit := rfl
@[simp] theorem State.withSurveyList_armingList (s : State) (v : List LaneId) : (s.withSurveyList v).armingList = s.armingList := rfl
@[simp] theorem State.withSurveyList_retireList (s : State) (v : List LaneId) : (s.withSurveyList v).retireList = s.retireList := rfl
@[simp] theorem State.withSurveyList_retire (s : State) (v : List LaneId) : (s.withSurveyList v).retire = s.retire := rfl
@[simp] theorem State.withSurveyList_scan (s : State) (v : List LaneId) : (s.withSurveyList v).scan = s.scan := rfl
@[simp] theorem State.withSurveyList_supply (s : State) (v : List LaneId) : (s.withSurveyList v).supply = s.supply := rfl
@[simp] theorem State.withSurveyList_power (s : State) (v : List LaneId) : (s.withSurveyList v).power = s.power := rfl
@[simp] theorem State.withSurveyList_pending (s : State) (v : List LaneId) : (s.withSurveyList v).pending = s.pending := rfl

@[simp] theorem State.withSurvey_width (s : State) (v : Option Survey) : (s.withSurvey v).width = s.width := rfl
@[simp] theorem State.withSurvey_height (s : State) (v : Option Survey) : (s.withSurvey v).height = s.height := rfl
@[simp] theorem State.withSurvey_image (s : State) (v : Option Survey) : (s.withSurvey v).image = s.image := rfl
@[simp] theorem State.withSurvey_pixels (s : State) (v : Option Survey) : (s.withSurvey v).pixels = s.pixels := rfl
@[simp] theorem State.withSurvey_portA (s : State) (v : Option Survey) : (s.withSurvey v).portA = s.portA := rfl
@[simp] theorem State.withSurvey_portB (s : State) (v : Option Survey) : (s.withSurvey v).portB = s.portB := rfl
@[simp] theorem State.withSurvey_lastGrant (s : State) (v : Option Survey) : (s.withSurvey v).lastGrant = s.lastGrant := rfl
@[simp] theorem State.withSurvey_table (s : State) (v : Option Survey) : (s.withSurvey v).table = s.table := rfl
@[simp] theorem State.withSurvey_temp (s : State) (v : Option Survey) : (s.withSurvey v).temp = s.temp := rfl
@[simp] theorem State.withSurvey_queue (s : State) (v : Option Survey) : (s.withSurvey v).queue = s.queue := rfl
@[simp] theorem State.withSurvey_zones (s : State) (v : Option Survey) : (s.withSurvey v).zones = s.zones := rfl
@[simp] theorem State.withSurvey_zoneDuration (s : State) (v : Option Survey) : (s.withSurvey v).zoneDuration = s.zoneDuration := rfl
@[simp] theorem State.withSurvey_lanes (s : State) (v : Option Survey) : (s.withSurvey v).lanes = s.lanes := rfl
@[simp] theorem State.withSurvey_surveyList (s : State) (v : Option Survey) : (s.withSurvey v).surveyList = s.surveyList := rfl
@[simp] theorem State.withSurvey_survey (s : State) (v : Option Survey) : (s.withSurvey v).survey = v := rfl
@[simp] theorem State.withSurvey_residueLimit (s : State) (v : Option Survey) : (s.withSurvey v).residueLimit = s.residueLimit := rfl
@[simp] theorem State.withSurvey_wearLimit (s : State) (v : Option Survey) : (s.withSurvey v).wearLimit = s.wearLimit := rfl
@[simp] theorem State.withSurvey_armingList (s : State) (v : Option Survey) : (s.withSurvey v).armingList = s.armingList := rfl
@[simp] theorem State.withSurvey_retireList (s : State) (v : Option Survey) : (s.withSurvey v).retireList = s.retireList := rfl
@[simp] theorem State.withSurvey_retire (s : State) (v : Option Survey) : (s.withSurvey v).retire = s.retire := rfl
@[simp] theorem State.withSurvey_scan (s : State) (v : Option Survey) : (s.withSurvey v).scan = s.scan := rfl
@[simp] theorem State.withSurvey_supply (s : State) (v : Option Survey) : (s.withSurvey v).supply = s.supply := rfl
@[simp] theorem State.withSurvey_power (s : State) (v : Option Survey) : (s.withSurvey v).power = s.power := rfl
@[simp] theorem State.withSurvey_pending (s : State) (v : Option Survey) : (s.withSurvey v).pending = s.pending := rfl

@[simp] theorem State.withLimits_width (s : State) (r w : Nat) : (s.withLimits r w).width = s.width := rfl
@[simp] theorem State.withLimits_height (s : State) (r w : Nat) : (s.withLimits r w).height = s.height := rfl
@[simp] theorem State.withLimits_image (s : State) (r w : Nat) : (s.withLimits r w).image = s.image := rfl
@[simp] theorem State.withLimits_pixels (s : State) (r w : Nat) : (s.withLimits r w).pixels = s.pixels := rfl
@[simp] theorem State.withLimits_portA (s : State) (r w : Nat) : (s.withLimits r w).portA = s.portA := rfl
@[simp] theorem State.withLimits_portB (s : State) (r w : Nat) : (s.withLimits r w).portB = s.portB := rfl
@[simp] theorem State.withLimits_lastGrant (s : State) (r w : Nat) : (s.withLimits r w).lastGrant = s.lastGrant := rfl
@[simp] theorem State.withLimits_table (s : State) (r w : Nat) : (s.withLimits r w).table = s.table := rfl
@[simp] theorem State.withLimits_temp (s : State) (r w : Nat) : (s.withLimits r w).temp = s.temp := rfl
@[simp] theorem State.withLimits_queue (s : State) (r w : Nat) : (s.withLimits r w).queue = s.queue := rfl
@[simp] theorem State.withLimits_zones (s : State) (r w : Nat) : (s.withLimits r w).zones = s.zones := rfl
@[simp] theorem State.withLimits_zoneDuration (s : State) (r w : Nat) : (s.withLimits r w).zoneDuration = s.zoneDuration := rfl
@[simp] theorem State.withLimits_lanes (s : State) (r w : Nat) : (s.withLimits r w).lanes = s.lanes := rfl
@[simp] theorem State.withLimits_surveyList (s : State) (r w : Nat) : (s.withLimits r w).surveyList = s.surveyList := rfl
@[simp] theorem State.withLimits_survey (s : State) (r w : Nat) : (s.withLimits r w).survey = s.survey := rfl
@[simp] theorem State.withLimits_residueLimit (s : State) (r w : Nat) : (s.withLimits r w).residueLimit = r := rfl
@[simp] theorem State.withLimits_wearLimit (s : State) (r w : Nat) : (s.withLimits r w).wearLimit = w := rfl
@[simp] theorem State.withLimits_armingList (s : State) (r w : Nat) : (s.withLimits r w).armingList = s.armingList := rfl
@[simp] theorem State.withLimits_retireList (s : State) (r w : Nat) : (s.withLimits r w).retireList = s.retireList := rfl
@[simp] theorem State.withLimits_retire (s : State) (r w : Nat) : (s.withLimits r w).retire = s.retire := rfl
@[simp] theorem State.withLimits_scan (s : State) (r w : Nat) : (s.withLimits r w).scan = s.scan := rfl
@[simp] theorem State.withLimits_supply (s : State) (r w : Nat) : (s.withLimits r w).supply = s.supply := rfl
@[simp] theorem State.withLimits_power (s : State) (r w : Nat) : (s.withLimits r w).power = s.power := rfl
@[simp] theorem State.withLimits_pending (s : State) (r w : Nat) : (s.withLimits r w).pending = s.pending := rfl

@[simp] theorem State.withArmingList_width (s : State) (v : List LaneId) : (s.withArmingList v).width = s.width := rfl
@[simp] theorem State.withArmingList_height (s : State) (v : List LaneId) : (s.withArmingList v).height = s.height := rfl
@[simp] theorem State.withArmingList_image (s : State) (v : List LaneId) : (s.withArmingList v).image = s.image := rfl
@[simp] theorem State.withArmingList_pixels (s : State) (v : List LaneId) : (s.withArmingList v).pixels = s.pixels := rfl
@[simp] theorem State.withArmingList_portA (s : State) (v : List LaneId) : (s.withArmingList v).portA = s.portA := rfl
@[simp] theorem State.withArmingList_portB (s : State) (v : List LaneId) : (s.withArmingList v).portB = s.portB := rfl
@[simp] theorem State.withArmingList_lastGrant (s : State) (v : List LaneId) : (s.withArmingList v).lastGrant = s.lastGrant := rfl
@[simp] theorem State.withArmingList_table (s : State) (v : List LaneId) : (s.withArmingList v).table = s.table := rfl
@[simp] theorem State.withArmingList_temp (s : State) (v : List LaneId) : (s.withArmingList v).temp = s.temp := rfl
@[simp] theorem State.withArmingList_queue (s : State) (v : List LaneId) : (s.withArmingList v).queue = s.queue := rfl
@[simp] theorem State.withArmingList_zones (s : State) (v : List LaneId) : (s.withArmingList v).zones = s.zones := rfl
@[simp] theorem State.withArmingList_zoneDuration (s : State) (v : List LaneId) : (s.withArmingList v).zoneDuration = s.zoneDuration := rfl
@[simp] theorem State.withArmingList_lanes (s : State) (v : List LaneId) : (s.withArmingList v).lanes = s.lanes := rfl
@[simp] theorem State.withArmingList_surveyList (s : State) (v : List LaneId) : (s.withArmingList v).surveyList = s.surveyList := rfl
@[simp] theorem State.withArmingList_survey (s : State) (v : List LaneId) : (s.withArmingList v).survey = s.survey := rfl
@[simp] theorem State.withArmingList_residueLimit (s : State) (v : List LaneId) : (s.withArmingList v).residueLimit = s.residueLimit := rfl
@[simp] theorem State.withArmingList_wearLimit (s : State) (v : List LaneId) : (s.withArmingList v).wearLimit = s.wearLimit := rfl
@[simp] theorem State.withArmingList_armingList (s : State) (v : List LaneId) : (s.withArmingList v).armingList = v := rfl
@[simp] theorem State.withArmingList_retireList (s : State) (v : List LaneId) : (s.withArmingList v).retireList = s.retireList := rfl
@[simp] theorem State.withArmingList_retire (s : State) (v : List LaneId) : (s.withArmingList v).retire = s.retire := rfl
@[simp] theorem State.withArmingList_scan (s : State) (v : List LaneId) : (s.withArmingList v).scan = s.scan := rfl
@[simp] theorem State.withArmingList_supply (s : State) (v : List LaneId) : (s.withArmingList v).supply = s.supply := rfl
@[simp] theorem State.withArmingList_power (s : State) (v : List LaneId) : (s.withArmingList v).power = s.power := rfl
@[simp] theorem State.withArmingList_pending (s : State) (v : List LaneId) : (s.withArmingList v).pending = s.pending := rfl

@[simp] theorem State.withRetireList_width (s : State) (v : List LaneId) : (s.withRetireList v).width = s.width := rfl
@[simp] theorem State.withRetireList_height (s : State) (v : List LaneId) : (s.withRetireList v).height = s.height := rfl
@[simp] theorem State.withRetireList_image (s : State) (v : List LaneId) : (s.withRetireList v).image = s.image := rfl
@[simp] theorem State.withRetireList_pixels (s : State) (v : List LaneId) : (s.withRetireList v).pixels = s.pixels := rfl
@[simp] theorem State.withRetireList_portA (s : State) (v : List LaneId) : (s.withRetireList v).portA = s.portA := rfl
@[simp] theorem State.withRetireList_portB (s : State) (v : List LaneId) : (s.withRetireList v).portB = s.portB := rfl
@[simp] theorem State.withRetireList_lastGrant (s : State) (v : List LaneId) : (s.withRetireList v).lastGrant = s.lastGrant := rfl
@[simp] theorem State.withRetireList_table (s : State) (v : List LaneId) : (s.withRetireList v).table = s.table := rfl
@[simp] theorem State.withRetireList_temp (s : State) (v : List LaneId) : (s.withRetireList v).temp = s.temp := rfl
@[simp] theorem State.withRetireList_queue (s : State) (v : List LaneId) : (s.withRetireList v).queue = s.queue := rfl
@[simp] theorem State.withRetireList_zones (s : State) (v : List LaneId) : (s.withRetireList v).zones = s.zones := rfl
@[simp] theorem State.withRetireList_zoneDuration (s : State) (v : List LaneId) : (s.withRetireList v).zoneDuration = s.zoneDuration := rfl
@[simp] theorem State.withRetireList_lanes (s : State) (v : List LaneId) : (s.withRetireList v).lanes = s.lanes := rfl
@[simp] theorem State.withRetireList_surveyList (s : State) (v : List LaneId) : (s.withRetireList v).surveyList = s.surveyList := rfl
@[simp] theorem State.withRetireList_survey (s : State) (v : List LaneId) : (s.withRetireList v).survey = s.survey := rfl
@[simp] theorem State.withRetireList_residueLimit (s : State) (v : List LaneId) : (s.withRetireList v).residueLimit = s.residueLimit := rfl
@[simp] theorem State.withRetireList_wearLimit (s : State) (v : List LaneId) : (s.withRetireList v).wearLimit = s.wearLimit := rfl
@[simp] theorem State.withRetireList_armingList (s : State) (v : List LaneId) : (s.withRetireList v).armingList = s.armingList := rfl
@[simp] theorem State.withRetireList_retireList (s : State) (v : List LaneId) : (s.withRetireList v).retireList = v := rfl
@[simp] theorem State.withRetireList_retire (s : State) (v : List LaneId) : (s.withRetireList v).retire = s.retire := rfl
@[simp] theorem State.withRetireList_scan (s : State) (v : List LaneId) : (s.withRetireList v).scan = s.scan := rfl
@[simp] theorem State.withRetireList_supply (s : State) (v : List LaneId) : (s.withRetireList v).supply = s.supply := rfl
@[simp] theorem State.withRetireList_power (s : State) (v : List LaneId) : (s.withRetireList v).power = s.power := rfl
@[simp] theorem State.withRetireList_pending (s : State) (v : List LaneId) : (s.withRetireList v).pending = s.pending := rfl

@[simp] theorem State.withRetire_width (s : State) (v : Option RetireWalk) : (s.withRetire v).width = s.width := rfl
@[simp] theorem State.withRetire_height (s : State) (v : Option RetireWalk) : (s.withRetire v).height = s.height := rfl
@[simp] theorem State.withRetire_image (s : State) (v : Option RetireWalk) : (s.withRetire v).image = s.image := rfl
@[simp] theorem State.withRetire_pixels (s : State) (v : Option RetireWalk) : (s.withRetire v).pixels = s.pixels := rfl
@[simp] theorem State.withRetire_portA (s : State) (v : Option RetireWalk) : (s.withRetire v).portA = s.portA := rfl
@[simp] theorem State.withRetire_portB (s : State) (v : Option RetireWalk) : (s.withRetire v).portB = s.portB := rfl
@[simp] theorem State.withRetire_lastGrant (s : State) (v : Option RetireWalk) : (s.withRetire v).lastGrant = s.lastGrant := rfl
@[simp] theorem State.withRetire_table (s : State) (v : Option RetireWalk) : (s.withRetire v).table = s.table := rfl
@[simp] theorem State.withRetire_temp (s : State) (v : Option RetireWalk) : (s.withRetire v).temp = s.temp := rfl
@[simp] theorem State.withRetire_queue (s : State) (v : Option RetireWalk) : (s.withRetire v).queue = s.queue := rfl
@[simp] theorem State.withRetire_zones (s : State) (v : Option RetireWalk) : (s.withRetire v).zones = s.zones := rfl
@[simp] theorem State.withRetire_zoneDuration (s : State) (v : Option RetireWalk) : (s.withRetire v).zoneDuration = s.zoneDuration := rfl
@[simp] theorem State.withRetire_lanes (s : State) (v : Option RetireWalk) : (s.withRetire v).lanes = s.lanes := rfl
@[simp] theorem State.withRetire_surveyList (s : State) (v : Option RetireWalk) : (s.withRetire v).surveyList = s.surveyList := rfl
@[simp] theorem State.withRetire_survey (s : State) (v : Option RetireWalk) : (s.withRetire v).survey = s.survey := rfl
@[simp] theorem State.withRetire_residueLimit (s : State) (v : Option RetireWalk) : (s.withRetire v).residueLimit = s.residueLimit := rfl
@[simp] theorem State.withRetire_wearLimit (s : State) (v : Option RetireWalk) : (s.withRetire v).wearLimit = s.wearLimit := rfl
@[simp] theorem State.withRetire_armingList (s : State) (v : Option RetireWalk) : (s.withRetire v).armingList = s.armingList := rfl
@[simp] theorem State.withRetire_retireList (s : State) (v : Option RetireWalk) : (s.withRetire v).retireList = s.retireList := rfl
@[simp] theorem State.withRetire_retire (s : State) (v : Option RetireWalk) : (s.withRetire v).retire = v := rfl
@[simp] theorem State.withRetire_scan (s : State) (v : Option RetireWalk) : (s.withRetire v).scan = s.scan := rfl
@[simp] theorem State.withRetire_supply (s : State) (v : Option RetireWalk) : (s.withRetire v).supply = s.supply := rfl
@[simp] theorem State.withRetire_power (s : State) (v : Option RetireWalk) : (s.withRetire v).power = s.power := rfl
@[simp] theorem State.withRetire_pending (s : State) (v : Option RetireWalk) : (s.withRetire v).pending = s.pending := rfl

@[simp] theorem State.withScan_width (s : State) (v : Scanner) : (s.withScan v).width = s.width := rfl
@[simp] theorem State.withScan_height (s : State) (v : Scanner) : (s.withScan v).height = s.height := rfl
@[simp] theorem State.withScan_image (s : State) (v : Scanner) : (s.withScan v).image = s.image := rfl
@[simp] theorem State.withScan_pixels (s : State) (v : Scanner) : (s.withScan v).pixels = s.pixels := rfl
@[simp] theorem State.withScan_portA (s : State) (v : Scanner) : (s.withScan v).portA = s.portA := rfl
@[simp] theorem State.withScan_portB (s : State) (v : Scanner) : (s.withScan v).portB = s.portB := rfl
@[simp] theorem State.withScan_lastGrant (s : State) (v : Scanner) : (s.withScan v).lastGrant = s.lastGrant := rfl
@[simp] theorem State.withScan_table (s : State) (v : Scanner) : (s.withScan v).table = s.table := rfl
@[simp] theorem State.withScan_temp (s : State) (v : Scanner) : (s.withScan v).temp = s.temp := rfl
@[simp] theorem State.withScan_queue (s : State) (v : Scanner) : (s.withScan v).queue = s.queue := rfl
@[simp] theorem State.withScan_zones (s : State) (v : Scanner) : (s.withScan v).zones = s.zones := rfl
@[simp] theorem State.withScan_zoneDuration (s : State) (v : Scanner) : (s.withScan v).zoneDuration = s.zoneDuration := rfl
@[simp] theorem State.withScan_lanes (s : State) (v : Scanner) : (s.withScan v).lanes = s.lanes := rfl
@[simp] theorem State.withScan_surveyList (s : State) (v : Scanner) : (s.withScan v).surveyList = s.surveyList := rfl
@[simp] theorem State.withScan_survey (s : State) (v : Scanner) : (s.withScan v).survey = s.survey := rfl
@[simp] theorem State.withScan_residueLimit (s : State) (v : Scanner) : (s.withScan v).residueLimit = s.residueLimit := rfl
@[simp] theorem State.withScan_wearLimit (s : State) (v : Scanner) : (s.withScan v).wearLimit = s.wearLimit := rfl
@[simp] theorem State.withScan_armingList (s : State) (v : Scanner) : (s.withScan v).armingList = s.armingList := rfl
@[simp] theorem State.withScan_retireList (s : State) (v : Scanner) : (s.withScan v).retireList = s.retireList := rfl
@[simp] theorem State.withScan_retire (s : State) (v : Scanner) : (s.withScan v).retire = s.retire := rfl
@[simp] theorem State.withScan_scan (s : State) (v : Scanner) : (s.withScan v).scan = v := rfl
@[simp] theorem State.withScan_supply (s : State) (v : Scanner) : (s.withScan v).supply = s.supply := rfl
@[simp] theorem State.withScan_power (s : State) (v : Scanner) : (s.withScan v).power = s.power := rfl
@[simp] theorem State.withScan_pending (s : State) (v : Scanner) : (s.withScan v).pending = s.pending := rfl

@[simp] theorem State.withSupply_width (s : State) (v : Supply) : (s.withSupply v).width = s.width := rfl
@[simp] theorem State.withSupply_height (s : State) (v : Supply) : (s.withSupply v).height = s.height := rfl
@[simp] theorem State.withSupply_image (s : State) (v : Supply) : (s.withSupply v).image = s.image := rfl
@[simp] theorem State.withSupply_pixels (s : State) (v : Supply) : (s.withSupply v).pixels = s.pixels := rfl
@[simp] theorem State.withSupply_portA (s : State) (v : Supply) : (s.withSupply v).portA = s.portA := rfl
@[simp] theorem State.withSupply_portB (s : State) (v : Supply) : (s.withSupply v).portB = s.portB := rfl
@[simp] theorem State.withSupply_lastGrant (s : State) (v : Supply) : (s.withSupply v).lastGrant = s.lastGrant := rfl
@[simp] theorem State.withSupply_table (s : State) (v : Supply) : (s.withSupply v).table = s.table := rfl
@[simp] theorem State.withSupply_temp (s : State) (v : Supply) : (s.withSupply v).temp = s.temp := rfl
@[simp] theorem State.withSupply_queue (s : State) (v : Supply) : (s.withSupply v).queue = s.queue := rfl
@[simp] theorem State.withSupply_zones (s : State) (v : Supply) : (s.withSupply v).zones = s.zones := rfl
@[simp] theorem State.withSupply_zoneDuration (s : State) (v : Supply) : (s.withSupply v).zoneDuration = s.zoneDuration := rfl
@[simp] theorem State.withSupply_lanes (s : State) (v : Supply) : (s.withSupply v).lanes = s.lanes := rfl
@[simp] theorem State.withSupply_surveyList (s : State) (v : Supply) : (s.withSupply v).surveyList = s.surveyList := rfl
@[simp] theorem State.withSupply_survey (s : State) (v : Supply) : (s.withSupply v).survey = s.survey := rfl
@[simp] theorem State.withSupply_residueLimit (s : State) (v : Supply) : (s.withSupply v).residueLimit = s.residueLimit := rfl
@[simp] theorem State.withSupply_wearLimit (s : State) (v : Supply) : (s.withSupply v).wearLimit = s.wearLimit := rfl
@[simp] theorem State.withSupply_armingList (s : State) (v : Supply) : (s.withSupply v).armingList = s.armingList := rfl
@[simp] theorem State.withSupply_retireList (s : State) (v : Supply) : (s.withSupply v).retireList = s.retireList := rfl
@[simp] theorem State.withSupply_retire (s : State) (v : Supply) : (s.withSupply v).retire = s.retire := rfl
@[simp] theorem State.withSupply_scan (s : State) (v : Supply) : (s.withSupply v).scan = s.scan := rfl
@[simp] theorem State.withSupply_supply (s : State) (v : Supply) : (s.withSupply v).supply = v := rfl
@[simp] theorem State.withSupply_power (s : State) (v : Supply) : (s.withSupply v).power = s.power := rfl
@[simp] theorem State.withSupply_pending (s : State) (v : Supply) : (s.withSupply v).pending = s.pending := rfl

@[simp] theorem State.withPower_width (s : State) (v : PowerUnit) : (s.withPower v).width = s.width := rfl
@[simp] theorem State.withPower_height (s : State) (v : PowerUnit) : (s.withPower v).height = s.height := rfl
@[simp] theorem State.withPower_image (s : State) (v : PowerUnit) : (s.withPower v).image = s.image := rfl
@[simp] theorem State.withPower_pixels (s : State) (v : PowerUnit) : (s.withPower v).pixels = s.pixels := rfl
@[simp] theorem State.withPower_portA (s : State) (v : PowerUnit) : (s.withPower v).portA = s.portA := rfl
@[simp] theorem State.withPower_portB (s : State) (v : PowerUnit) : (s.withPower v).portB = s.portB := rfl
@[simp] theorem State.withPower_lastGrant (s : State) (v : PowerUnit) : (s.withPower v).lastGrant = s.lastGrant := rfl
@[simp] theorem State.withPower_table (s : State) (v : PowerUnit) : (s.withPower v).table = s.table := rfl
@[simp] theorem State.withPower_temp (s : State) (v : PowerUnit) : (s.withPower v).temp = s.temp := rfl
@[simp] theorem State.withPower_queue (s : State) (v : PowerUnit) : (s.withPower v).queue = s.queue := rfl
@[simp] theorem State.withPower_zones (s : State) (v : PowerUnit) : (s.withPower v).zones = s.zones := rfl
@[simp] theorem State.withPower_zoneDuration (s : State) (v : PowerUnit) : (s.withPower v).zoneDuration = s.zoneDuration := rfl
@[simp] theorem State.withPower_lanes (s : State) (v : PowerUnit) : (s.withPower v).lanes = s.lanes := rfl
@[simp] theorem State.withPower_surveyList (s : State) (v : PowerUnit) : (s.withPower v).surveyList = s.surveyList := rfl
@[simp] theorem State.withPower_survey (s : State) (v : PowerUnit) : (s.withPower v).survey = s.survey := rfl
@[simp] theorem State.withPower_residueLimit (s : State) (v : PowerUnit) : (s.withPower v).residueLimit = s.residueLimit := rfl
@[simp] theorem State.withPower_wearLimit (s : State) (v : PowerUnit) : (s.withPower v).wearLimit = s.wearLimit := rfl
@[simp] theorem State.withPower_armingList (s : State) (v : PowerUnit) : (s.withPower v).armingList = s.armingList := rfl
@[simp] theorem State.withPower_retireList (s : State) (v : PowerUnit) : (s.withPower v).retireList = s.retireList := rfl
@[simp] theorem State.withPower_retire (s : State) (v : PowerUnit) : (s.withPower v).retire = s.retire := rfl
@[simp] theorem State.withPower_scan (s : State) (v : PowerUnit) : (s.withPower v).scan = s.scan := rfl
@[simp] theorem State.withPower_supply (s : State) (v : PowerUnit) : (s.withPower v).supply = s.supply := rfl
@[simp] theorem State.withPower_power (s : State) (v : PowerUnit) : (s.withPower v).power = v := rfl
@[simp] theorem State.withPower_pending (s : State) (v : PowerUnit) : (s.withPower v).pending = s.pending := rfl

@[simp] theorem State.withPending_width (s : State) (v : List Instr) : (s.withPending v).width = s.width := rfl
@[simp] theorem State.withPending_height (s : State) (v : List Instr) : (s.withPending v).height = s.height := rfl
@[simp] theorem State.withPending_image (s : State) (v : List Instr) : (s.withPending v).image = s.image := rfl
@[simp] theorem State.withPending_pixels (s : State) (v : List Instr) : (s.withPending v).pixels = s.pixels := rfl
@[simp] theorem State.withPending_portA (s : State) (v : List Instr) : (s.withPending v).portA = s.portA := rfl
@[simp] theorem State.withPending_portB (s : State) (v : List Instr) : (s.withPending v).portB = s.portB := rfl
@[simp] theorem State.withPending_lastGrant (s : State) (v : List Instr) : (s.withPending v).lastGrant = s.lastGrant := rfl
@[simp] theorem State.withPending_table (s : State) (v : List Instr) : (s.withPending v).table = s.table := rfl
@[simp] theorem State.withPending_temp (s : State) (v : List Instr) : (s.withPending v).temp = s.temp := rfl
@[simp] theorem State.withPending_queue (s : State) (v : List Instr) : (s.withPending v).queue = s.queue := rfl
@[simp] theorem State.withPending_zones (s : State) (v : List Instr) : (s.withPending v).zones = s.zones := rfl
@[simp] theorem State.withPending_zoneDuration (s : State) (v : List Instr) : (s.withPending v).zoneDuration = s.zoneDuration := rfl
@[simp] theorem State.withPending_lanes (s : State) (v : List Instr) : (s.withPending v).lanes = s.lanes := rfl
@[simp] theorem State.withPending_surveyList (s : State) (v : List Instr) : (s.withPending v).surveyList = s.surveyList := rfl
@[simp] theorem State.withPending_survey (s : State) (v : List Instr) : (s.withPending v).survey = s.survey := rfl
@[simp] theorem State.withPending_residueLimit (s : State) (v : List Instr) : (s.withPending v).residueLimit = s.residueLimit := rfl
@[simp] theorem State.withPending_wearLimit (s : State) (v : List Instr) : (s.withPending v).wearLimit = s.wearLimit := rfl
@[simp] theorem State.withPending_armingList (s : State) (v : List Instr) : (s.withPending v).armingList = s.armingList := rfl
@[simp] theorem State.withPending_retireList (s : State) (v : List Instr) : (s.withPending v).retireList = s.retireList := rfl
@[simp] theorem State.withPending_retire (s : State) (v : List Instr) : (s.withPending v).retire = s.retire := rfl
@[simp] theorem State.withPending_scan (s : State) (v : List Instr) : (s.withPending v).scan = s.scan := rfl
@[simp] theorem State.withPending_supply (s : State) (v : List Instr) : (s.withPending v).supply = s.supply := rfl
@[simp] theorem State.withPending_power (s : State) (v : List Instr) : (s.withPending v).power = s.power := rfl
@[simp] theorem State.withPending_pending (s : State) (v : List Instr) : (s.withPending v).pending = v := rfl

@[simp] theorem State.setPort_width (s : State) (p : Port) (v : PortState) : (s.setPort p v).width = s.width := by cases p <;> rfl
@[simp] theorem State.setPort_height (s : State) (p : Port) (v : PortState) : (s.setPort p v).height = s.height := by cases p <;> rfl
@[simp] theorem State.setPort_image (s : State) (p : Port) (v : PortState) : (s.setPort p v).image = s.image := by cases p <;> rfl
@[simp] theorem State.setPort_pixels (s : State) (p : Port) (v : PortState) : (s.setPort p v).pixels = s.pixels := by cases p <;> rfl
@[simp] theorem State.setPort_lastGrant (s : State) (p : Port) (v : PortState) : (s.setPort p v).lastGrant = s.lastGrant := by cases p <;> rfl
@[simp] theorem State.setPort_table (s : State) (p : Port) (v : PortState) : (s.setPort p v).table = s.table := by cases p <;> rfl
@[simp] theorem State.setPort_temp (s : State) (p : Port) (v : PortState) : (s.setPort p v).temp = s.temp := by cases p <;> rfl
@[simp] theorem State.setPort_queue (s : State) (p : Port) (v : PortState) : (s.setPort p v).queue = s.queue := by cases p <;> rfl
@[simp] theorem State.setPort_zones (s : State) (p : Port) (v : PortState) : (s.setPort p v).zones = s.zones := by cases p <;> rfl
@[simp] theorem State.setPort_zoneDuration (s : State) (p : Port) (v : PortState) : (s.setPort p v).zoneDuration = s.zoneDuration := by cases p <;> rfl
@[simp] theorem State.setPort_lanes (s : State) (p : Port) (v : PortState) : (s.setPort p v).lanes = s.lanes := by cases p <;> rfl
@[simp] theorem State.setPort_surveyList (s : State) (p : Port) (v : PortState) : (s.setPort p v).surveyList = s.surveyList := by cases p <;> rfl
@[simp] theorem State.setPort_survey (s : State) (p : Port) (v : PortState) : (s.setPort p v).survey = s.survey := by cases p <;> rfl
@[simp] theorem State.setPort_residueLimit (s : State) (p : Port) (v : PortState) : (s.setPort p v).residueLimit = s.residueLimit := by cases p <;> rfl
@[simp] theorem State.setPort_wearLimit (s : State) (p : Port) (v : PortState) : (s.setPort p v).wearLimit = s.wearLimit := by cases p <;> rfl
@[simp] theorem State.setPort_armingList (s : State) (p : Port) (v : PortState) : (s.setPort p v).armingList = s.armingList := by cases p <;> rfl
@[simp] theorem State.setPort_retireList (s : State) (p : Port) (v : PortState) : (s.setPort p v).retireList = s.retireList := by cases p <;> rfl
@[simp] theorem State.setPort_retire (s : State) (p : Port) (v : PortState) : (s.setPort p v).retire = s.retire := by cases p <;> rfl
@[simp] theorem State.setPort_scan (s : State) (p : Port) (v : PortState) : (s.setPort p v).scan = s.scan := by cases p <;> rfl
@[simp] theorem State.setPort_supply (s : State) (p : Port) (v : PortState) : (s.setPort p v).supply = s.supply := by cases p <;> rfl
@[simp] theorem State.setPort_power (s : State) (p : Port) (v : PortState) : (s.setPort p v).power = s.power := by cases p <;> rfl
@[simp] theorem State.setPort_pending (s : State) (p : Port) (v : PortState) : (s.setPort p v).pending = s.pending := by cases p <;> rfl

@[simp] theorem State.setLane_width (s : State) (l : LaneId) (v : Lane) : (s.setLane l v).width = s.width := rfl
@[simp] theorem State.setLane_height (s : State) (l : LaneId) (v : Lane) : (s.setLane l v).height = s.height := rfl
@[simp] theorem State.setLane_image (s : State) (l : LaneId) (v : Lane) : (s.setLane l v).image = s.image := rfl
@[simp] theorem State.setLane_pixels (s : State) (l : LaneId) (v : Lane) : (s.setLane l v).pixels = s.pixels := rfl
@[simp] theorem State.setLane_portA (s : State) (l : LaneId) (v : Lane) : (s.setLane l v).portA = s.portA := rfl
@[simp] theorem State.setLane_portB (s : State) (l : LaneId) (v : Lane) : (s.setLane l v).portB = s.portB := rfl
@[simp] theorem State.setLane_lastGrant (s : State) (l : LaneId) (v : Lane) : (s.setLane l v).lastGrant = s.lastGrant := rfl
@[simp] theorem State.setLane_table (s : State) (l : LaneId) (v : Lane) : (s.setLane l v).table = s.table := rfl
@[simp] theorem State.setLane_temp (s : State) (l : LaneId) (v : Lane) : (s.setLane l v).temp = s.temp := rfl
@[simp] theorem State.setLane_queue (s : State) (l : LaneId) (v : Lane) : (s.setLane l v).queue = s.queue := rfl
@[simp] theorem State.setLane_zones (s : State) (l : LaneId) (v : Lane) : (s.setLane l v).zones = s.zones := rfl
@[simp] theorem State.setLane_zoneDuration (s : State) (l : LaneId) (v : Lane) : (s.setLane l v).zoneDuration = s.zoneDuration := rfl
@[simp] theorem State.setLane_surveyList (s : State) (l : LaneId) (v : Lane) : (s.setLane l v).surveyList = s.surveyList := rfl
@[simp] theorem State.setLane_survey (s : State) (l : LaneId) (v : Lane) : (s.setLane l v).survey = s.survey := rfl
@[simp] theorem State.setLane_residueLimit (s : State) (l : LaneId) (v : Lane) : (s.setLane l v).residueLimit = s.residueLimit := rfl
@[simp] theorem State.setLane_wearLimit (s : State) (l : LaneId) (v : Lane) : (s.setLane l v).wearLimit = s.wearLimit := rfl
@[simp] theorem State.setLane_armingList (s : State) (l : LaneId) (v : Lane) : (s.setLane l v).armingList = s.armingList := rfl
@[simp] theorem State.setLane_retireList (s : State) (l : LaneId) (v : Lane) : (s.setLane l v).retireList = s.retireList := rfl
@[simp] theorem State.setLane_retire (s : State) (l : LaneId) (v : Lane) : (s.setLane l v).retire = s.retire := rfl
@[simp] theorem State.setLane_scan (s : State) (l : LaneId) (v : Lane) : (s.setLane l v).scan = s.scan := rfl
@[simp] theorem State.setLane_supply (s : State) (l : LaneId) (v : Lane) : (s.setLane l v).supply = s.supply := rfl
@[simp] theorem State.setLane_power (s : State) (l : LaneId) (v : Lane) : (s.setLane l v).power = s.power := rfl
@[simp] theorem State.setLane_pending (s : State) (l : LaneId) (v : Lane) : (s.setLane l v).pending = s.pending := rfl

@[simp] theorem State.setZone_width (s : State) (z : Fin 4) (v : Option Zone) : (s.setZone z v).width = s.width := rfl
@[simp] theorem State.setZone_height (s : State) (z : Fin 4) (v : Option Zone) : (s.setZone z v).height = s.height := rfl
@[simp] theorem State.setZone_image (s : State) (z : Fin 4) (v : Option Zone) : (s.setZone z v).image = s.image := rfl
@[simp] theorem State.setZone_pixels (s : State) (z : Fin 4) (v : Option Zone) : (s.setZone z v).pixels = s.pixels := rfl
@[simp] theorem State.setZone_portA (s : State) (z : Fin 4) (v : Option Zone) : (s.setZone z v).portA = s.portA := rfl
@[simp] theorem State.setZone_portB (s : State) (z : Fin 4) (v : Option Zone) : (s.setZone z v).portB = s.portB := rfl
@[simp] theorem State.setZone_lastGrant (s : State) (z : Fin 4) (v : Option Zone) : (s.setZone z v).lastGrant = s.lastGrant := rfl
@[simp] theorem State.setZone_table (s : State) (z : Fin 4) (v : Option Zone) : (s.setZone z v).table = s.table := rfl
@[simp] theorem State.setZone_temp (s : State) (z : Fin 4) (v : Option Zone) : (s.setZone z v).temp = s.temp := rfl
@[simp] theorem State.setZone_queue (s : State) (z : Fin 4) (v : Option Zone) : (s.setZone z v).queue = s.queue := rfl
@[simp] theorem State.setZone_zoneDuration (s : State) (z : Fin 4) (v : Option Zone) : (s.setZone z v).zoneDuration = s.zoneDuration := rfl
@[simp] theorem State.setZone_lanes (s : State) (z : Fin 4) (v : Option Zone) : (s.setZone z v).lanes = s.lanes := rfl
@[simp] theorem State.setZone_surveyList (s : State) (z : Fin 4) (v : Option Zone) : (s.setZone z v).surveyList = s.surveyList := rfl
@[simp] theorem State.setZone_survey (s : State) (z : Fin 4) (v : Option Zone) : (s.setZone z v).survey = s.survey := rfl
@[simp] theorem State.setZone_residueLimit (s : State) (z : Fin 4) (v : Option Zone) : (s.setZone z v).residueLimit = s.residueLimit := rfl
@[simp] theorem State.setZone_wearLimit (s : State) (z : Fin 4) (v : Option Zone) : (s.setZone z v).wearLimit = s.wearLimit := rfl
@[simp] theorem State.setZone_armingList (s : State) (z : Fin 4) (v : Option Zone) : (s.setZone z v).armingList = s.armingList := rfl
@[simp] theorem State.setZone_retireList (s : State) (z : Fin 4) (v : Option Zone) : (s.setZone z v).retireList = s.retireList := rfl
@[simp] theorem State.setZone_retire (s : State) (z : Fin 4) (v : Option Zone) : (s.setZone z v).retire = s.retire := rfl
@[simp] theorem State.setZone_scan (s : State) (z : Fin 4) (v : Option Zone) : (s.setZone z v).scan = s.scan := rfl
@[simp] theorem State.setZone_supply (s : State) (z : Fin 4) (v : Option Zone) : (s.setZone z v).supply = s.supply := rfl
@[simp] theorem State.setZone_power (s : State) (z : Fin 4) (v : Option Zone) : (s.setZone z v).power = s.power := rfl
@[simp] theorem State.setZone_pending (s : State) (z : Fin 4) (v : Option Zone) : (s.setZone z v).pending = s.pending := rfl

/-! ## Ports, lanes and zones -/

@[simp] theorem State.withGeometry_port (s : State) (w h : Nat) (q : Port) : (s.withGeometry w h).port q = s.port q := by cases q <;> rfl
@[simp] theorem State.withGeometry_lane (s : State) (w h : Nat) (k : LaneId) : (s.withGeometry w h).lane k = s.lane k := rfl
@[simp] theorem State.withGeometry_zone (s : State) (w h : Nat) (k : Fin 4) : (s.withGeometry w h).zone k = s.zone k := rfl
@[simp] theorem State.withImage_port (s : State) (v : Store Level) (q : Port) : (s.withImage v).port q = s.port q := by cases q <;> rfl
@[simp] theorem State.withImage_lane (s : State) (v : Store Level) (k : LaneId) : (s.withImage v).lane k = s.lane k := rfl
@[simp] theorem State.withImage_zone (s : State) (v : Store Level) (k : Fin 4) : (s.withImage v).zone k = s.zone k := rfl
@[simp] theorem State.withPixels_port (s : State) (v : Store PixelRecord) (q : Port) : (s.withPixels v).port q = s.port q := by cases q <;> rfl
@[simp] theorem State.withPixels_lane (s : State) (v : Store PixelRecord) (k : LaneId) : (s.withPixels v).lane k = s.lane k := rfl
@[simp] theorem State.withPixels_zone (s : State) (v : Store PixelRecord) (k : Fin 4) : (s.withPixels v).zone k = s.zone k := rfl
@[simp] theorem State.withLastGrant_port (s : State) (v : Requester) (q : Port) : (s.withLastGrant v).port q = s.port q := by cases q <;> rfl
@[simp] theorem State.withLastGrant_lane (s : State) (v : Requester) (k : LaneId) : (s.withLastGrant v).lane k = s.lane k := rfl
@[simp] theorem State.withLastGrant_zone (s : State) (v : Requester) (k : Fin 4) : (s.withLastGrant v).zone k = s.zone k := rfl
@[simp] theorem State.withTable_port (s : State) (v : TableUnit) (q : Port) : (s.withTable v).port q = s.port q := by cases q <;> rfl
@[simp] theorem State.withTable_lane (s : State) (v : TableUnit) (k : LaneId) : (s.withTable v).lane k = s.lane k := rfl
@[simp] theorem State.withTable_zone (s : State) (v : TableUnit) (k : Fin 4) : (s.withTable v).zone k = s.zone k := rfl
@[simp] theorem State.withTemp_port (s : State) (v : TempUnit) (q : Port) : (s.withTemp v).port q = s.port q := by cases q <;> rfl
@[simp] theorem State.withTemp_lane (s : State) (v : TempUnit) (k : LaneId) : (s.withTemp v).lane k = s.lane k := rfl
@[simp] theorem State.withTemp_zone (s : State) (v : TempUnit) (k : Fin 4) : (s.withTemp v).zone k = s.zone k := rfl
@[simp] theorem State.withQueue_port (s : State) (v : List Request) (q : Port) : (s.withQueue v).port q = s.port q := by cases q <;> rfl
@[simp] theorem State.withQueue_lane (s : State) (v : List Request) (k : LaneId) : (s.withQueue v).lane k = s.lane k := rfl
@[simp] theorem State.withQueue_zone (s : State) (v : List Request) (k : Fin 4) : (s.withQueue v).zone k = s.zone k := rfl
@[simp] theorem State.withZones_port (s : State) (v : Vector (Option Zone) 4) (q : Port) : (s.withZones v).port q = s.port q := by cases q <;> rfl
@[simp] theorem State.withZones_lane (s : State) (v : Vector (Option Zone) 4) (k : LaneId) : (s.withZones v).lane k = s.lane k := rfl
@[simp] theorem State.withZoneDuration_port (s : State) (v : Nat) (q : Port) : (s.withZoneDuration v).port q = s.port q := by cases q <;> rfl
@[simp] theorem State.withZoneDuration_lane (s : State) (v : Nat) (k : LaneId) : (s.withZoneDuration v).lane k = s.lane k := rfl
@[simp] theorem State.withZoneDuration_zone (s : State) (v : Nat) (k : Fin 4) : (s.withZoneDuration v).zone k = s.zone k := rfl
@[simp] theorem State.withLanes_port (s : State) (v : Vector Lane 15) (q : Port) : (s.withLanes v).port q = s.port q := by cases q <;> rfl
@[simp] theorem State.withLanes_zone (s : State) (v : Vector Lane 15) (k : Fin 4) : (s.withLanes v).zone k = s.zone k := rfl
@[simp] theorem State.withSurveyList_port (s : State) (v : List LaneId) (q : Port) : (s.withSurveyList v).port q = s.port q := by cases q <;> rfl
@[simp] theorem State.withSurveyList_lane (s : State) (v : List LaneId) (k : LaneId) : (s.withSurveyList v).lane k = s.lane k := rfl
@[simp] theorem State.withSurveyList_zone (s : State) (v : List LaneId) (k : Fin 4) : (s.withSurveyList v).zone k = s.zone k := rfl
@[simp] theorem State.withSurvey_port (s : State) (v : Option Survey) (q : Port) : (s.withSurvey v).port q = s.port q := by cases q <;> rfl
@[simp] theorem State.withSurvey_lane (s : State) (v : Option Survey) (k : LaneId) : (s.withSurvey v).lane k = s.lane k := rfl
@[simp] theorem State.withSurvey_zone (s : State) (v : Option Survey) (k : Fin 4) : (s.withSurvey v).zone k = s.zone k := rfl
@[simp] theorem State.withLimits_port (s : State) (r w : Nat) (q : Port) : (s.withLimits r w).port q = s.port q := by cases q <;> rfl
@[simp] theorem State.withLimits_lane (s : State) (r w : Nat) (k : LaneId) : (s.withLimits r w).lane k = s.lane k := rfl
@[simp] theorem State.withLimits_zone (s : State) (r w : Nat) (k : Fin 4) : (s.withLimits r w).zone k = s.zone k := rfl
@[simp] theorem State.withArmingList_port (s : State) (v : List LaneId) (q : Port) : (s.withArmingList v).port q = s.port q := by cases q <;> rfl
@[simp] theorem State.withArmingList_lane (s : State) (v : List LaneId) (k : LaneId) : (s.withArmingList v).lane k = s.lane k := rfl
@[simp] theorem State.withArmingList_zone (s : State) (v : List LaneId) (k : Fin 4) : (s.withArmingList v).zone k = s.zone k := rfl
@[simp] theorem State.withRetireList_port (s : State) (v : List LaneId) (q : Port) : (s.withRetireList v).port q = s.port q := by cases q <;> rfl
@[simp] theorem State.withRetireList_lane (s : State) (v : List LaneId) (k : LaneId) : (s.withRetireList v).lane k = s.lane k := rfl
@[simp] theorem State.withRetireList_zone (s : State) (v : List LaneId) (k : Fin 4) : (s.withRetireList v).zone k = s.zone k := rfl
@[simp] theorem State.withRetire_port (s : State) (v : Option RetireWalk) (q : Port) : (s.withRetire v).port q = s.port q := by cases q <;> rfl
@[simp] theorem State.withRetire_lane (s : State) (v : Option RetireWalk) (k : LaneId) : (s.withRetire v).lane k = s.lane k := rfl
@[simp] theorem State.withRetire_zone (s : State) (v : Option RetireWalk) (k : Fin 4) : (s.withRetire v).zone k = s.zone k := rfl
@[simp] theorem State.withScan_port (s : State) (v : Scanner) (q : Port) : (s.withScan v).port q = s.port q := by cases q <;> rfl
@[simp] theorem State.withScan_lane (s : State) (v : Scanner) (k : LaneId) : (s.withScan v).lane k = s.lane k := rfl
@[simp] theorem State.withScan_zone (s : State) (v : Scanner) (k : Fin 4) : (s.withScan v).zone k = s.zone k := rfl
@[simp] theorem State.withSupply_port (s : State) (v : Supply) (q : Port) : (s.withSupply v).port q = s.port q := by cases q <;> rfl
@[simp] theorem State.withSupply_lane (s : State) (v : Supply) (k : LaneId) : (s.withSupply v).lane k = s.lane k := rfl
@[simp] theorem State.withSupply_zone (s : State) (v : Supply) (k : Fin 4) : (s.withSupply v).zone k = s.zone k := rfl
@[simp] theorem State.withPower_port (s : State) (v : PowerUnit) (q : Port) : (s.withPower v).port q = s.port q := by cases q <;> rfl
@[simp] theorem State.withPower_lane (s : State) (v : PowerUnit) (k : LaneId) : (s.withPower v).lane k = s.lane k := rfl
@[simp] theorem State.withPower_zone (s : State) (v : PowerUnit) (k : Fin 4) : (s.withPower v).zone k = s.zone k := rfl
@[simp] theorem State.withPending_port (s : State) (v : List Instr) (q : Port) : (s.withPending v).port q = s.port q := by cases q <;> rfl
@[simp] theorem State.withPending_lane (s : State) (v : List Instr) (k : LaneId) : (s.withPending v).lane k = s.lane k := rfl
@[simp] theorem State.withPending_zone (s : State) (v : List Instr) (k : Fin 4) : (s.withPending v).zone k = s.zone k := rfl
@[simp] theorem State.setPort_lane (s : State) (p : Port) (v : PortState) (k : LaneId) : (s.setPort p v).lane k = s.lane k := by cases p <;> rfl
@[simp] theorem State.setPort_zone (s : State) (p : Port) (v : PortState) (k : Fin 4) : (s.setPort p v).zone k = s.zone k := by cases p <;> rfl
@[simp] theorem State.setLane_port (s : State) (l : LaneId) (v : Lane) (q : Port) : (s.setLane l v).port q = s.port q := by cases q <;> rfl
@[simp] theorem State.setLane_zone (s : State) (l : LaneId) (v : Lane) (k : Fin 4) : (s.setLane l v).zone k = s.zone k := rfl
@[simp] theorem State.setZone_port (s : State) (z : Fin 4) (v : Option Zone) (q : Port) : (s.setZone z v).port q = s.port q := by cases q <;> rfl
@[simp] theorem State.setZone_lane (s : State) (z : Fin 4) (v : Option Zone) (k : LaneId) : (s.setZone z v).lane k = s.lane k := rfl

/-! ## What is read of the state as a whole -/

@[simp] theorem State.withGeometry_allFree (s : State) (w h : Nat) : (s.withGeometry w h).allFree = s.allFree := rfl
@[simp] theorem State.withGeometry_noZone (s : State) (w h : Nat) : (s.withGeometry w h).noZone = s.noZone := rfl
@[simp] theorem State.withGeometry_tableValid (s : State) (w h : Nat) : (s.withGeometry w h).tableValid = s.tableValid := rfl
@[simp] theorem State.withGeometry_level (s : State) (w h : Nat) (x : Pos) : (s.withGeometry w h).level x = s.level x := rfl
@[simp] theorem State.withGeometry_pixel (s : State) (w h : Nat) (x : Pos) : (s.withGeometry w h).pixel x = s.pixel x := rfl
@[simp] theorem State.withGeometry_modeRecord (s : State) (w h : Nat) (m : Nat) : (s.withGeometry w h).modeRecord m = s.modeRecord m := rfl
@[simp] theorem State.withGeometry_recipe (s : State) (w h : Nat) (m : Nat) (b : Option Nat) (f : Option Level) (d : Level) (k : Variant) : (s.withGeometry w h).recipe m b f d k = s.recipe m b f d k := rfl
@[simp] theorem State.withGeometry_driveCode (s : State) (w h : Nat) (c : PixelRecord) : (s.withGeometry w h).driveCode c = s.driveCode c := rfl
@[simp] theorem State.withGeometry_surveyBand (s : State) (w h : Nat) : (s.withGeometry w h).surveyBand = s.surveyBand := rfl
@[simp] theorem State.withImage_allFree (s : State) (v : Store Level) : (s.withImage v).allFree = s.allFree := rfl
@[simp] theorem State.withImage_noZone (s : State) (v : Store Level) : (s.withImage v).noZone = s.noZone := rfl
@[simp] theorem State.withImage_tableValid (s : State) (v : Store Level) : (s.withImage v).tableValid = s.tableValid := rfl
@[simp] theorem State.withImage_pixel (s : State) (v : Store Level) (x : Pos) : (s.withImage v).pixel x = s.pixel x := rfl
@[simp] theorem State.withImage_modeRecord (s : State) (v : Store Level) (m : Nat) : (s.withImage v).modeRecord m = s.modeRecord m := rfl
@[simp] theorem State.withImage_recipe (s : State) (v : Store Level) (m : Nat) (b : Option Nat) (f : Option Level) (d : Level) (k : Variant) : (s.withImage v).recipe m b f d k = s.recipe m b f d k := rfl
@[simp] theorem State.withImage_driveCode (s : State) (v : Store Level) (c : PixelRecord) : (s.withImage v).driveCode c = s.driveCode c := rfl
@[simp] theorem State.withImage_surveyBand (s : State) (v : Store Level) : (s.withImage v).surveyBand = s.surveyBand := rfl
@[simp] theorem State.withPixels_allFree (s : State) (v : Store PixelRecord) : (s.withPixels v).allFree = s.allFree := rfl
@[simp] theorem State.withPixels_noZone (s : State) (v : Store PixelRecord) : (s.withPixels v).noZone = s.noZone := rfl
@[simp] theorem State.withPixels_tableValid (s : State) (v : Store PixelRecord) : (s.withPixels v).tableValid = s.tableValid := rfl
@[simp] theorem State.withPixels_level (s : State) (v : Store PixelRecord) (x : Pos) : (s.withPixels v).level x = s.level x := rfl
@[simp] theorem State.withPixels_modeRecord (s : State) (v : Store PixelRecord) (m : Nat) : (s.withPixels v).modeRecord m = s.modeRecord m := rfl
@[simp] theorem State.withPixels_recipe (s : State) (v : Store PixelRecord) (m : Nat) (b : Option Nat) (f : Option Level) (d : Level) (k : Variant) : (s.withPixels v).recipe m b f d k = s.recipe m b f d k := rfl
@[simp] theorem State.withPixels_driveCode (s : State) (v : Store PixelRecord) (c : PixelRecord) : (s.withPixels v).driveCode c = s.driveCode c := rfl
@[simp] theorem State.withPixels_surveyBand (s : State) (v : Store PixelRecord) : (s.withPixels v).surveyBand = s.surveyBand := rfl
@[simp] theorem State.withLastGrant_allFree (s : State) (v : Requester) : (s.withLastGrant v).allFree = s.allFree := rfl
@[simp] theorem State.withLastGrant_noZone (s : State) (v : Requester) : (s.withLastGrant v).noZone = s.noZone := rfl
@[simp] theorem State.withLastGrant_tableValid (s : State) (v : Requester) : (s.withLastGrant v).tableValid = s.tableValid := rfl
@[simp] theorem State.withLastGrant_level (s : State) (v : Requester) (x : Pos) : (s.withLastGrant v).level x = s.level x := rfl
@[simp] theorem State.withLastGrant_pixel (s : State) (v : Requester) (x : Pos) : (s.withLastGrant v).pixel x = s.pixel x := rfl
@[simp] theorem State.withLastGrant_modeRecord (s : State) (v : Requester) (m : Nat) : (s.withLastGrant v).modeRecord m = s.modeRecord m := rfl
@[simp] theorem State.withLastGrant_recipe (s : State) (v : Requester) (m : Nat) (b : Option Nat) (f : Option Level) (d : Level) (k : Variant) : (s.withLastGrant v).recipe m b f d k = s.recipe m b f d k := rfl
@[simp] theorem State.withLastGrant_driveCode (s : State) (v : Requester) (c : PixelRecord) : (s.withLastGrant v).driveCode c = s.driveCode c := rfl
@[simp] theorem State.withLastGrant_surveyBand (s : State) (v : Requester) : (s.withLastGrant v).surveyBand = s.surveyBand := rfl
@[simp] theorem State.withTable_allFree (s : State) (v : TableUnit) : (s.withTable v).allFree = s.allFree := rfl
@[simp] theorem State.withTable_noZone (s : State) (v : TableUnit) : (s.withTable v).noZone = s.noZone := rfl
@[simp] theorem State.withTable_level (s : State) (v : TableUnit) (x : Pos) : (s.withTable v).level x = s.level x := rfl
@[simp] theorem State.withTable_pixel (s : State) (v : TableUnit) (x : Pos) : (s.withTable v).pixel x = s.pixel x := rfl
@[simp] theorem State.withTemp_allFree (s : State) (v : TempUnit) : (s.withTemp v).allFree = s.allFree := rfl
@[simp] theorem State.withTemp_noZone (s : State) (v : TempUnit) : (s.withTemp v).noZone = s.noZone := rfl
@[simp] theorem State.withTemp_tableValid (s : State) (v : TempUnit) : (s.withTemp v).tableValid = s.tableValid := rfl
@[simp] theorem State.withTemp_level (s : State) (v : TempUnit) (x : Pos) : (s.withTemp v).level x = s.level x := rfl
@[simp] theorem State.withTemp_pixel (s : State) (v : TempUnit) (x : Pos) : (s.withTemp v).pixel x = s.pixel x := rfl
@[simp] theorem State.withTemp_modeRecord (s : State) (v : TempUnit) (m : Nat) : (s.withTemp v).modeRecord m = s.modeRecord m := rfl
@[simp] theorem State.withTemp_recipe (s : State) (v : TempUnit) (m : Nat) (b : Option Nat) (f : Option Level) (d : Level) (k : Variant) : (s.withTemp v).recipe m b f d k = s.recipe m b f d k := rfl
@[simp] theorem State.withTemp_driveCode (s : State) (v : TempUnit) (c : PixelRecord) : (s.withTemp v).driveCode c = s.driveCode c := rfl
@[simp] theorem State.withQueue_allFree (s : State) (v : List Request) : (s.withQueue v).allFree = s.allFree := rfl
@[simp] theorem State.withQueue_noZone (s : State) (v : List Request) : (s.withQueue v).noZone = s.noZone := rfl
@[simp] theorem State.withQueue_tableValid (s : State) (v : List Request) : (s.withQueue v).tableValid = s.tableValid := rfl
@[simp] theorem State.withQueue_level (s : State) (v : List Request) (x : Pos) : (s.withQueue v).level x = s.level x := rfl
@[simp] theorem State.withQueue_pixel (s : State) (v : List Request) (x : Pos) : (s.withQueue v).pixel x = s.pixel x := rfl
@[simp] theorem State.withQueue_modeRecord (s : State) (v : List Request) (m : Nat) : (s.withQueue v).modeRecord m = s.modeRecord m := rfl
@[simp] theorem State.withQueue_recipe (s : State) (v : List Request) (m : Nat) (b : Option Nat) (f : Option Level) (d : Level) (k : Variant) : (s.withQueue v).recipe m b f d k = s.recipe m b f d k := rfl
@[simp] theorem State.withQueue_driveCode (s : State) (v : List Request) (c : PixelRecord) : (s.withQueue v).driveCode c = s.driveCode c := rfl
@[simp] theorem State.withQueue_surveyBand (s : State) (v : List Request) : (s.withQueue v).surveyBand = s.surveyBand := rfl
@[simp] theorem State.withZones_allFree (s : State) (v : Vector (Option Zone) 4) : (s.withZones v).allFree = s.allFree := rfl
@[simp] theorem State.withZones_tableValid (s : State) (v : Vector (Option Zone) 4) : (s.withZones v).tableValid = s.tableValid := rfl
@[simp] theorem State.withZones_level (s : State) (v : Vector (Option Zone) 4) (x : Pos) : (s.withZones v).level x = s.level x := rfl
@[simp] theorem State.withZones_pixel (s : State) (v : Vector (Option Zone) 4) (x : Pos) : (s.withZones v).pixel x = s.pixel x := rfl
@[simp] theorem State.withZones_modeRecord (s : State) (v : Vector (Option Zone) 4) (m : Nat) : (s.withZones v).modeRecord m = s.modeRecord m := rfl
@[simp] theorem State.withZones_recipe (s : State) (v : Vector (Option Zone) 4) (m : Nat) (b : Option Nat) (f : Option Level) (d : Level) (k : Variant) : (s.withZones v).recipe m b f d k = s.recipe m b f d k := rfl
@[simp] theorem State.withZones_driveCode (s : State) (v : Vector (Option Zone) 4) (c : PixelRecord) : (s.withZones v).driveCode c = s.driveCode c := rfl
@[simp] theorem State.withZones_surveyBand (s : State) (v : Vector (Option Zone) 4) : (s.withZones v).surveyBand = s.surveyBand := rfl
@[simp] theorem State.withZoneDuration_allFree (s : State) (v : Nat) : (s.withZoneDuration v).allFree = s.allFree := rfl
@[simp] theorem State.withZoneDuration_noZone (s : State) (v : Nat) : (s.withZoneDuration v).noZone = s.noZone := rfl
@[simp] theorem State.withZoneDuration_tableValid (s : State) (v : Nat) : (s.withZoneDuration v).tableValid = s.tableValid := rfl
@[simp] theorem State.withZoneDuration_level (s : State) (v : Nat) (x : Pos) : (s.withZoneDuration v).level x = s.level x := rfl
@[simp] theorem State.withZoneDuration_pixel (s : State) (v : Nat) (x : Pos) : (s.withZoneDuration v).pixel x = s.pixel x := rfl
@[simp] theorem State.withZoneDuration_modeRecord (s : State) (v : Nat) (m : Nat) : (s.withZoneDuration v).modeRecord m = s.modeRecord m := rfl
@[simp] theorem State.withZoneDuration_recipe (s : State) (v : Nat) (m : Nat) (b : Option Nat) (f : Option Level) (d : Level) (k : Variant) : (s.withZoneDuration v).recipe m b f d k = s.recipe m b f d k := rfl
@[simp] theorem State.withZoneDuration_driveCode (s : State) (v : Nat) (c : PixelRecord) : (s.withZoneDuration v).driveCode c = s.driveCode c := rfl
@[simp] theorem State.withZoneDuration_surveyBand (s : State) (v : Nat) : (s.withZoneDuration v).surveyBand = s.surveyBand := rfl
@[simp] theorem State.withLanes_noZone (s : State) (v : Vector Lane 15) : (s.withLanes v).noZone = s.noZone := rfl
@[simp] theorem State.withLanes_tableValid (s : State) (v : Vector Lane 15) : (s.withLanes v).tableValid = s.tableValid := rfl
@[simp] theorem State.withLanes_level (s : State) (v : Vector Lane 15) (x : Pos) : (s.withLanes v).level x = s.level x := rfl
@[simp] theorem State.withLanes_pixel (s : State) (v : Vector Lane 15) (x : Pos) : (s.withLanes v).pixel x = s.pixel x := rfl
@[simp] theorem State.withLanes_modeRecord (s : State) (v : Vector Lane 15) (m : Nat) : (s.withLanes v).modeRecord m = s.modeRecord m := rfl
@[simp] theorem State.withLanes_recipe (s : State) (v : Vector Lane 15) (m : Nat) (b : Option Nat) (f : Option Level) (d : Level) (k : Variant) : (s.withLanes v).recipe m b f d k = s.recipe m b f d k := rfl
@[simp] theorem State.withLanes_surveyBand (s : State) (v : Vector Lane 15) : (s.withLanes v).surveyBand = s.surveyBand := rfl
@[simp] theorem State.withSurveyList_allFree (s : State) (v : List LaneId) : (s.withSurveyList v).allFree = s.allFree := rfl
@[simp] theorem State.withSurveyList_noZone (s : State) (v : List LaneId) : (s.withSurveyList v).noZone = s.noZone := rfl
@[simp] theorem State.withSurveyList_tableValid (s : State) (v : List LaneId) : (s.withSurveyList v).tableValid = s.tableValid := rfl
@[simp] theorem State.withSurveyList_level (s : State) (v : List LaneId) (x : Pos) : (s.withSurveyList v).level x = s.level x := rfl
@[simp] theorem State.withSurveyList_pixel (s : State) (v : List LaneId) (x : Pos) : (s.withSurveyList v).pixel x = s.pixel x := rfl
@[simp] theorem State.withSurveyList_modeRecord (s : State) (v : List LaneId) (m : Nat) : (s.withSurveyList v).modeRecord m = s.modeRecord m := rfl
@[simp] theorem State.withSurveyList_recipe (s : State) (v : List LaneId) (m : Nat) (b : Option Nat) (f : Option Level) (d : Level) (k : Variant) : (s.withSurveyList v).recipe m b f d k = s.recipe m b f d k := rfl
@[simp] theorem State.withSurveyList_driveCode (s : State) (v : List LaneId) (c : PixelRecord) : (s.withSurveyList v).driveCode c = s.driveCode c := rfl
@[simp] theorem State.withSurveyList_surveyBand (s : State) (v : List LaneId) : (s.withSurveyList v).surveyBand = s.surveyBand := rfl
@[simp] theorem State.withSurvey_allFree (s : State) (v : Option Survey) : (s.withSurvey v).allFree = s.allFree := rfl
@[simp] theorem State.withSurvey_noZone (s : State) (v : Option Survey) : (s.withSurvey v).noZone = s.noZone := rfl
@[simp] theorem State.withSurvey_tableValid (s : State) (v : Option Survey) : (s.withSurvey v).tableValid = s.tableValid := rfl
@[simp] theorem State.withSurvey_level (s : State) (v : Option Survey) (x : Pos) : (s.withSurvey v).level x = s.level x := rfl
@[simp] theorem State.withSurvey_pixel (s : State) (v : Option Survey) (x : Pos) : (s.withSurvey v).pixel x = s.pixel x := rfl
@[simp] theorem State.withSurvey_modeRecord (s : State) (v : Option Survey) (m : Nat) : (s.withSurvey v).modeRecord m = s.modeRecord m := rfl
@[simp] theorem State.withSurvey_recipe (s : State) (v : Option Survey) (m : Nat) (b : Option Nat) (f : Option Level) (d : Level) (k : Variant) : (s.withSurvey v).recipe m b f d k = s.recipe m b f d k := rfl
@[simp] theorem State.withSurvey_driveCode (s : State) (v : Option Survey) (c : PixelRecord) : (s.withSurvey v).driveCode c = s.driveCode c := rfl
@[simp] theorem State.withSurvey_surveyBand (s : State) (v : Option Survey) : (s.withSurvey v).surveyBand = s.surveyBand := rfl
@[simp] theorem State.withLimits_allFree (s : State) (r w : Nat) : (s.withLimits r w).allFree = s.allFree := rfl
@[simp] theorem State.withLimits_noZone (s : State) (r w : Nat) : (s.withLimits r w).noZone = s.noZone := rfl
@[simp] theorem State.withLimits_tableValid (s : State) (r w : Nat) : (s.withLimits r w).tableValid = s.tableValid := rfl
@[simp] theorem State.withLimits_level (s : State) (r w : Nat) (x : Pos) : (s.withLimits r w).level x = s.level x := rfl
@[simp] theorem State.withLimits_pixel (s : State) (r w : Nat) (x : Pos) : (s.withLimits r w).pixel x = s.pixel x := rfl
@[simp] theorem State.withLimits_modeRecord (s : State) (r w : Nat) (m : Nat) : (s.withLimits r w).modeRecord m = s.modeRecord m := rfl
@[simp] theorem State.withLimits_recipe (s : State) (r w : Nat) (m : Nat) (b : Option Nat) (f : Option Level) (d : Level) (k : Variant) : (s.withLimits r w).recipe m b f d k = s.recipe m b f d k := rfl
@[simp] theorem State.withLimits_driveCode (s : State) (r w : Nat) (c : PixelRecord) : (s.withLimits r w).driveCode c = s.driveCode c := rfl
@[simp] theorem State.withLimits_surveyBand (s : State) (r w : Nat) : (s.withLimits r w).surveyBand = s.surveyBand := rfl
@[simp] theorem State.withArmingList_allFree (s : State) (v : List LaneId) : (s.withArmingList v).allFree = s.allFree := rfl
@[simp] theorem State.withArmingList_noZone (s : State) (v : List LaneId) : (s.withArmingList v).noZone = s.noZone := rfl
@[simp] theorem State.withArmingList_tableValid (s : State) (v : List LaneId) : (s.withArmingList v).tableValid = s.tableValid := rfl
@[simp] theorem State.withArmingList_level (s : State) (v : List LaneId) (x : Pos) : (s.withArmingList v).level x = s.level x := rfl
@[simp] theorem State.withArmingList_pixel (s : State) (v : List LaneId) (x : Pos) : (s.withArmingList v).pixel x = s.pixel x := rfl
@[simp] theorem State.withArmingList_modeRecord (s : State) (v : List LaneId) (m : Nat) : (s.withArmingList v).modeRecord m = s.modeRecord m := rfl
@[simp] theorem State.withArmingList_recipe (s : State) (v : List LaneId) (m : Nat) (b : Option Nat) (f : Option Level) (d : Level) (k : Variant) : (s.withArmingList v).recipe m b f d k = s.recipe m b f d k := rfl
@[simp] theorem State.withArmingList_driveCode (s : State) (v : List LaneId) (c : PixelRecord) : (s.withArmingList v).driveCode c = s.driveCode c := rfl
@[simp] theorem State.withArmingList_surveyBand (s : State) (v : List LaneId) : (s.withArmingList v).surveyBand = s.surveyBand := rfl
@[simp] theorem State.withRetireList_allFree (s : State) (v : List LaneId) : (s.withRetireList v).allFree = s.allFree := rfl
@[simp] theorem State.withRetireList_noZone (s : State) (v : List LaneId) : (s.withRetireList v).noZone = s.noZone := rfl
@[simp] theorem State.withRetireList_tableValid (s : State) (v : List LaneId) : (s.withRetireList v).tableValid = s.tableValid := rfl
@[simp] theorem State.withRetireList_level (s : State) (v : List LaneId) (x : Pos) : (s.withRetireList v).level x = s.level x := rfl
@[simp] theorem State.withRetireList_pixel (s : State) (v : List LaneId) (x : Pos) : (s.withRetireList v).pixel x = s.pixel x := rfl
@[simp] theorem State.withRetireList_modeRecord (s : State) (v : List LaneId) (m : Nat) : (s.withRetireList v).modeRecord m = s.modeRecord m := rfl
@[simp] theorem State.withRetireList_recipe (s : State) (v : List LaneId) (m : Nat) (b : Option Nat) (f : Option Level) (d : Level) (k : Variant) : (s.withRetireList v).recipe m b f d k = s.recipe m b f d k := rfl
@[simp] theorem State.withRetireList_driveCode (s : State) (v : List LaneId) (c : PixelRecord) : (s.withRetireList v).driveCode c = s.driveCode c := rfl
@[simp] theorem State.withRetireList_surveyBand (s : State) (v : List LaneId) : (s.withRetireList v).surveyBand = s.surveyBand := rfl
@[simp] theorem State.withRetire_allFree (s : State) (v : Option RetireWalk) : (s.withRetire v).allFree = s.allFree := rfl
@[simp] theorem State.withRetire_noZone (s : State) (v : Option RetireWalk) : (s.withRetire v).noZone = s.noZone := rfl
@[simp] theorem State.withRetire_tableValid (s : State) (v : Option RetireWalk) : (s.withRetire v).tableValid = s.tableValid := rfl
@[simp] theorem State.withRetire_level (s : State) (v : Option RetireWalk) (x : Pos) : (s.withRetire v).level x = s.level x := rfl
@[simp] theorem State.withRetire_pixel (s : State) (v : Option RetireWalk) (x : Pos) : (s.withRetire v).pixel x = s.pixel x := rfl
@[simp] theorem State.withRetire_modeRecord (s : State) (v : Option RetireWalk) (m : Nat) : (s.withRetire v).modeRecord m = s.modeRecord m := rfl
@[simp] theorem State.withRetire_recipe (s : State) (v : Option RetireWalk) (m : Nat) (b : Option Nat) (f : Option Level) (d : Level) (k : Variant) : (s.withRetire v).recipe m b f d k = s.recipe m b f d k := rfl
@[simp] theorem State.withRetire_driveCode (s : State) (v : Option RetireWalk) (c : PixelRecord) : (s.withRetire v).driveCode c = s.driveCode c := rfl
@[simp] theorem State.withRetire_surveyBand (s : State) (v : Option RetireWalk) : (s.withRetire v).surveyBand = s.surveyBand := rfl
@[simp] theorem State.withScan_allFree (s : State) (v : Scanner) : (s.withScan v).allFree = s.allFree := rfl
@[simp] theorem State.withScan_noZone (s : State) (v : Scanner) : (s.withScan v).noZone = s.noZone := rfl
@[simp] theorem State.withScan_tableValid (s : State) (v : Scanner) : (s.withScan v).tableValid = s.tableValid := rfl
@[simp] theorem State.withScan_level (s : State) (v : Scanner) (x : Pos) : (s.withScan v).level x = s.level x := rfl
@[simp] theorem State.withScan_pixel (s : State) (v : Scanner) (x : Pos) : (s.withScan v).pixel x = s.pixel x := rfl
@[simp] theorem State.withScan_modeRecord (s : State) (v : Scanner) (m : Nat) : (s.withScan v).modeRecord m = s.modeRecord m := rfl
@[simp] theorem State.withScan_recipe (s : State) (v : Scanner) (m : Nat) (b : Option Nat) (f : Option Level) (d : Level) (k : Variant) : (s.withScan v).recipe m b f d k = s.recipe m b f d k := rfl
@[simp] theorem State.withScan_driveCode (s : State) (v : Scanner) (c : PixelRecord) : (s.withScan v).driveCode c = s.driveCode c := rfl
@[simp] theorem State.withScan_surveyBand (s : State) (v : Scanner) : (s.withScan v).surveyBand = s.surveyBand := rfl
@[simp] theorem State.withSupply_allFree (s : State) (v : Supply) : (s.withSupply v).allFree = s.allFree := rfl
@[simp] theorem State.withSupply_noZone (s : State) (v : Supply) : (s.withSupply v).noZone = s.noZone := rfl
@[simp] theorem State.withSupply_tableValid (s : State) (v : Supply) : (s.withSupply v).tableValid = s.tableValid := rfl
@[simp] theorem State.withSupply_level (s : State) (v : Supply) (x : Pos) : (s.withSupply v).level x = s.level x := rfl
@[simp] theorem State.withSupply_pixel (s : State) (v : Supply) (x : Pos) : (s.withSupply v).pixel x = s.pixel x := rfl
@[simp] theorem State.withSupply_modeRecord (s : State) (v : Supply) (m : Nat) : (s.withSupply v).modeRecord m = s.modeRecord m := rfl
@[simp] theorem State.withSupply_recipe (s : State) (v : Supply) (m : Nat) (b : Option Nat) (f : Option Level) (d : Level) (k : Variant) : (s.withSupply v).recipe m b f d k = s.recipe m b f d k := rfl
@[simp] theorem State.withSupply_driveCode (s : State) (v : Supply) (c : PixelRecord) : (s.withSupply v).driveCode c = s.driveCode c := rfl
@[simp] theorem State.withSupply_surveyBand (s : State) (v : Supply) : (s.withSupply v).surveyBand = s.surveyBand := rfl
@[simp] theorem State.withPower_allFree (s : State) (v : PowerUnit) : (s.withPower v).allFree = s.allFree := rfl
@[simp] theorem State.withPower_noZone (s : State) (v : PowerUnit) : (s.withPower v).noZone = s.noZone := rfl
@[simp] theorem State.withPower_tableValid (s : State) (v : PowerUnit) : (s.withPower v).tableValid = s.tableValid := rfl
@[simp] theorem State.withPower_level (s : State) (v : PowerUnit) (x : Pos) : (s.withPower v).level x = s.level x := rfl
@[simp] theorem State.withPower_pixel (s : State) (v : PowerUnit) (x : Pos) : (s.withPower v).pixel x = s.pixel x := rfl
@[simp] theorem State.withPower_modeRecord (s : State) (v : PowerUnit) (m : Nat) : (s.withPower v).modeRecord m = s.modeRecord m := rfl
@[simp] theorem State.withPower_recipe (s : State) (v : PowerUnit) (m : Nat) (b : Option Nat) (f : Option Level) (d : Level) (k : Variant) : (s.withPower v).recipe m b f d k = s.recipe m b f d k := rfl
@[simp] theorem State.withPower_driveCode (s : State) (v : PowerUnit) (c : PixelRecord) : (s.withPower v).driveCode c = s.driveCode c := rfl
@[simp] theorem State.withPower_surveyBand (s : State) (v : PowerUnit) : (s.withPower v).surveyBand = s.surveyBand := rfl
@[simp] theorem State.withPending_allFree (s : State) (v : List Instr) : (s.withPending v).allFree = s.allFree := rfl
@[simp] theorem State.withPending_noZone (s : State) (v : List Instr) : (s.withPending v).noZone = s.noZone := rfl
@[simp] theorem State.withPending_tableValid (s : State) (v : List Instr) : (s.withPending v).tableValid = s.tableValid := rfl
@[simp] theorem State.withPending_level (s : State) (v : List Instr) (x : Pos) : (s.withPending v).level x = s.level x := rfl
@[simp] theorem State.withPending_pixel (s : State) (v : List Instr) (x : Pos) : (s.withPending v).pixel x = s.pixel x := rfl
@[simp] theorem State.withPending_modeRecord (s : State) (v : List Instr) (m : Nat) : (s.withPending v).modeRecord m = s.modeRecord m := rfl
@[simp] theorem State.withPending_recipe (s : State) (v : List Instr) (m : Nat) (b : Option Nat) (f : Option Level) (d : Level) (k : Variant) : (s.withPending v).recipe m b f d k = s.recipe m b f d k := rfl
@[simp] theorem State.withPending_driveCode (s : State) (v : List Instr) (c : PixelRecord) : (s.withPending v).driveCode c = s.driveCode c := rfl
@[simp] theorem State.withPending_surveyBand (s : State) (v : List Instr) : (s.withPending v).surveyBand = s.surveyBand := rfl
@[simp] theorem State.setPort_allFree (s : State) (p : Port) (w : PortState) : (s.setPort p w).allFree = s.allFree := by cases p <;> rfl
@[simp] theorem State.setPort_noZone (s : State) (p : Port) (w : PortState) : (s.setPort p w).noZone = s.noZone := by cases p <;> rfl
@[simp] theorem State.setPort_tableValid (s : State) (p : Port) (w : PortState) : (s.setPort p w).tableValid = s.tableValid := by cases p <;> rfl
@[simp] theorem State.setPort_level (s : State) (p : Port) (w : PortState) (x : Pos) : (s.setPort p w).level x = s.level x := by cases p <;> rfl
@[simp] theorem State.setPort_pixel (s : State) (p : Port) (w : PortState) (x : Pos) : (s.setPort p w).pixel x = s.pixel x := by cases p <;> rfl
@[simp] theorem State.setPort_modeRecord (s : State) (p : Port) (w : PortState) (m : Nat) : (s.setPort p w).modeRecord m = s.modeRecord m := by cases p <;> rfl
@[simp] theorem State.setPort_recipe (s : State) (p : Port) (w : PortState) (m : Nat) (b : Option Nat) (f : Option Level) (d : Level) (k : Variant) : (s.setPort p w).recipe m b f d k = s.recipe m b f d k := by cases p <;> rfl
@[simp] theorem State.setPort_driveCode (s : State) (p : Port) (w : PortState) (c : PixelRecord) : (s.setPort p w).driveCode c = s.driveCode c := by cases p <;> rfl
@[simp] theorem State.setPort_surveyBand (s : State) (p : Port) (w : PortState) : (s.setPort p w).surveyBand = s.surveyBand := by cases p <;> rfl
@[simp] theorem State.setLane_noZone (s : State) (l : LaneId) (v : Lane) : (s.setLane l v).noZone = s.noZone := rfl
@[simp] theorem State.setLane_tableValid (s : State) (l : LaneId) (v : Lane) : (s.setLane l v).tableValid = s.tableValid := rfl
@[simp] theorem State.setLane_level (s : State) (l : LaneId) (v : Lane) (x : Pos) : (s.setLane l v).level x = s.level x := rfl
@[simp] theorem State.setLane_pixel (s : State) (l : LaneId) (v : Lane) (x : Pos) : (s.setLane l v).pixel x = s.pixel x := rfl
@[simp] theorem State.setLane_modeRecord (s : State) (l : LaneId) (v : Lane) (m : Nat) : (s.setLane l v).modeRecord m = s.modeRecord m := rfl
@[simp] theorem State.setLane_recipe (s : State) (l : LaneId) (v : Lane) (m : Nat) (b : Option Nat) (f : Option Level) (d : Level) (k : Variant) : (s.setLane l v).recipe m b f d k = s.recipe m b f d k := rfl
@[simp] theorem State.setLane_surveyBand (s : State) (l : LaneId) (v : Lane) : (s.setLane l v).surveyBand = s.surveyBand := rfl
@[simp] theorem State.setZone_allFree (s : State) (z : Fin 4) (v : Option Zone) : (s.setZone z v).allFree = s.allFree := rfl
@[simp] theorem State.setZone_tableValid (s : State) (z : Fin 4) (v : Option Zone) : (s.setZone z v).tableValid = s.tableValid := rfl
@[simp] theorem State.setZone_level (s : State) (z : Fin 4) (v : Option Zone) (x : Pos) : (s.setZone z v).level x = s.level x := rfl
@[simp] theorem State.setZone_pixel (s : State) (z : Fin 4) (v : Option Zone) (x : Pos) : (s.setZone z v).pixel x = s.pixel x := rfl
@[simp] theorem State.setZone_modeRecord (s : State) (z : Fin 4) (v : Option Zone) (m : Nat) : (s.setZone z v).modeRecord m = s.modeRecord m := rfl
@[simp] theorem State.setZone_recipe (s : State) (z : Fin 4) (v : Option Zone) (m : Nat) (b : Option Nat) (f : Option Level) (d : Level) (k : Variant) : (s.setZone z v).recipe m b f d k = s.recipe m b f d k := rfl
@[simp] theorem State.setZone_driveCode (s : State) (z : Fin 4) (v : Option Zone) (c : PixelRecord) : (s.setZone z v).driveCode c = s.driveCode c := rfl
@[simp] theorem State.setZone_surveyBand (s : State) (z : Fin 4) (v : Option Zone) : (s.setZone z v).surveyBand = s.surveyBand := rfl

/-- The port that was set reads what was set; the other reads as before. -/
@[simp] theorem State.setPort_port (s : State) (p q : Port) (v : PortState) :
    (s.setPort p v).port q = if q = p then v else s.port q := by cases p <;> cases q <;> rfl

@[simp] theorem State.setPort_portA (s : State) (p : Port) (v : PortState) :
    (s.setPort p v).portA = if p = .a then v else s.portA := by cases p <;> rfl

@[simp] theorem State.setPort_portB (s : State) (p : Port) (v : PortState) :
    (s.setPort p v).portB = if p = .b then v else s.portB := by cases p <;> rfl

theorem State.port_a (s : State) : s.port .a = s.portA := rfl

theorem State.port_b (s : State) : s.port .b = s.portB := rfl

/-- The lane that was set reads what was set; every other reads as before. -/
@[simp] theorem State.setLane_lane (s : State) (l k : LaneId) (v : Lane) :
    (s.setLane l v).lane k = if k = l then v else s.lane k := by
  simp only [State.lane, State.setLane, State.withLanes, Vector.getElem_set, Fin.ext_iff, eq_comm]

/-- The zone that was set reads what was set; every other reads as before. -/
@[simp] theorem State.setZone_zone (s : State) (z k : Fin 4) (v : Option Zone) :
    (s.setZone z v).zone k = if k = z then v else s.zone k := by
  simp only [State.zone, State.setZone, State.withZones, Vector.getElem_set, Fin.ext_iff, eq_comm]

theorem State.withLanes_lane (s : State) (v : Vector Lane 15) (l : LaneId) : (s.withLanes v).lane l = v[l.val] := rfl

/-- The port that was set last is the one that counts. -/
@[simp] theorem State.setPort_setPort (s : State) (p : Port) (v w : PortState) :
    (s.setPort p v).setPort p w = s.setPort p w := by cases p <;> rfl

@[simp] theorem State.setPort_self (s : State) (p : Port) : s.setPort p (s.port p) = s := by cases p <;> rfl

/-- Two states are equal when every field is; ports, lanes and zones one by one. -/
theorem State.ext_fields {s t : State} (width : s.width = t.width) (height : s.height = t.height)
    (image : s.image = t.image) (pixels : s.pixels = t.pixels) (ports : ∀ p, s.port p = t.port p)
    (lastGrant : s.lastGrant = t.lastGrant) (table : s.table = t.table) (temp : s.temp = t.temp)
    (queue : s.queue = t.queue) (zones : ∀ z, s.zone z = t.zone z) (zoneDuration : s.zoneDuration = t.zoneDuration)
    (lanes : ∀ l, s.lane l = t.lane l) (surveyList : s.surveyList = t.surveyList) (survey : s.survey = t.survey)
    (residueLimit : s.residueLimit = t.residueLimit) (wearLimit : s.wearLimit = t.wearLimit)
    (armingList : s.armingList = t.armingList) (retireList : s.retireList = t.retireList)
    (retire : s.retire = t.retire) (scan : s.scan = t.scan) (supply : s.supply = t.supply)
    (power : s.power = t.power) (pending : s.pending = t.pending) : s = t := by
  have hz : s.zones = t.zones := Vector.ext fun i hi => zones ⟨i, hi⟩
  have hl : s.lanes = t.lanes := Vector.ext fun i hi => lanes ⟨i, hi⟩
  have ha := ports .a
  have hb := ports .b
  cases s; cases t
  simp_all [State.port]

/-- A lane of the reset state is at rest, and a zone is free. -/
@[simp] theorem State.reset_lane (l : LaneId) : State.reset.lane l = Lane.rest := by
  simp [State.lane, State.reset, State.powerOn]

@[simp] theorem State.reset_zone (z : Fin 4) : State.reset.zone z = none := by
  simp [State.zone, State.reset, State.powerOn]

end Sys2Proof.Machine
end

