-- ==== Sys2Proof/Laws/Link.lean ====
section
/-! SUPPORT. What the operations of the command link can do: flags, results, the end of a transaction.
-/

namespace Sys2Proof.Machine

/-! ## Ports and results -/

/-- A port once select has risen on a transaction of `n` bytes, before its command's own effect (R164, R171). -/
def State.risen (s : State) (p : Port) (n : Nat) : PortState :=
  { s.port p with txn := .closed, consent := false, response := [], dataOut := s.sentOut p n }

/-- What the part clocks out by a rise is what the statements say (R61, R171). -/
@[simp] theorem State.outAtRise_eq (s : State) (p : Port) (n : Nat) : s.outAtRise p n = s.sentOut p n := by
  by_cases h : s.ready p = true <;> simp [State.outAtRise, State.sentOut, responseOut, h]

/-- While READY is high the response bytes not on record yet go out last (R171). -/
theorem State.sentOut_of_ready (s : State) (p : Port) (n : Nat) (h : s.ready p = true) :
    s.sentOut p n = (s.port p).dataOut ++ (responseOut (s.port p).response n).drop (s.port p).outCount := by
  simp [State.sentOut, responseOut, h]

/-- A rise that takes no byte adds nothing to what has gone out. -/
@[simp] theorem State.sentOut_zero (s : State) (p : Port) : s.sentOut p 0 = (s.port p).dataOut := by
  simp [State.sentOut]

@[simp] theorem State.mapPort_eq (s : State) (p : Port) (f : PortState → PortState) :
    s.mapPort p f = s.setPort p (f (s.port p)) := rfl

@[simp] theorem State.mapLane_eq (s : State) (l : LaneId) (f : Lane → Lane) :
    s.mapLane l f = s.setLane l (f (s.lane l)) := rfl

theorem State.raise_eq (s : State) (p : Port) (f : Flag) :
    s.raise p f = s.setPort p { s.port p with flags := (s.port p).flags ||| BitVec.twoPow 12 f.bit } := rfl

theorem State.raiseBoth_eq (s : State) (f : Flag) :
    s.raiseBoth f =
      (s.setPort .a { s.portA with flags := s.portA.flags ||| BitVec.twoPow 12 f.bit }).setPort .b
        { s.portB with flags := s.portB.flags ||| BitVec.twoPow 12 f.bit } := rfl

/-- A result is set, and a refusal raises REFUSED (R170). -/
theorem State.setResult_eq (s : State) (p : Port) (r : Result) :
    s.setResult p r = s.setPort p { s.port p with
      result := r, flags := if 16 ≤ r.code.toNat then (s.port p).flags ||| 0x004 else (s.port p).flags } := by
  cases r <;> cases p <;> rfl

/-- Setting the result of a port whose transaction has just risen is the end of that transaction. -/
theorem State.setResult_risen (s : State) (p : Port) (n : Nat) (r : Result) :
    (s.setPort p (s.risen p n)).setResult p r = s.ends p n r := by
  simp [State.setResult_eq, State.ends, State.ended, State.risen]

/-- A done record joins the queue with DONE, or is lost with DONE_LOST (R175). -/
theorem State.appendDone_eq (s : State) (p : Port) (d : DoneRecord) :
    s.appendDone p d = s.setPort p (if (s.port p).done.length < 16 then
      { s.port p with done := (s.port p).done ++ [d], flags := (s.port p).flags ||| 0x001 }
    else { s.port p with flags := (s.port p).flags ||| 0x002 }) := by
  have h0 : BitVec.twoPow 12 Flag.done.bit = 1#12 := rfl
  have h1 : BitVec.twoPow 12 Flag.doneLost.bit = 2#12 := rfl
  by_cases h : (s.port p).done.length < 16 <;>
    simp [State.appendDone, Config.doneCapacity, State.raise, h0, h1, h]

/-! ## Transactions -/

theorem State.opened_of_open (s : State) (p : Port) (h : (s.port p).txn ≠ .closed) : s.opened p = s := by
  simp [State.opened, State.selectHigh, h]

/-- A command whose bytes were taken and fit its frame has its effect on the port as its select has risen (R169). -/
theorem State.transact_takes (s : State) (p : Port) (fr : Frame) (req : List Byte) (i : Instr) (e : State → State)
    (h : s.takes p) (hf : fr.fits req.length = true) :
    s.transact p fr req i e = e (s.setPort p (s.risen p (req.length + 1))) := by
  have h1 : s.opened p = s := s.opened_of_open p (by simp [h.1])
  simp only [State.transact, h1, h.1]
  simp [hf, State.closeTransaction, h.2, State.risen]

/-- A command whose bytes were taken but do not fit its frame is refused BAD_FRAME (R169, R171). -/
theorem State.transact_badFrame (s : State) (p : Port) (fr : Frame) (req : List Byte) (i : Instr) (e : State → State)
    (h : (s.port p).txn = .opened true) (hf : fr.fits req.length = false) :
    s.transact p fr req i e = s.setPort p { s.ended p (req.length + 1) .badFrame with
      response := match fr with | .query _ => [(s.port p).result.code] | _ => [] } := by
  have h1 : s.opened p = s := s.opened_of_open p (by simp [h])
  simp only [State.transact, h1, h]
  cases fr <;> simp [hf, State.closeTransaction, State.refuseFrame, State.setResult_eq, State.ended]

/-- The rise of a transaction of which no byte was taken: refused BAD_FRAME (R169), or behind what the port holds while
a geometry sweep runs (R168; Log 21). -/
theorem State.refuseUntaken_eq (s : State) (p : Port) (n : Nat) :
    s.refuseUntaken p n =
      let q := { s.port p with
        txn := .closed, consent := false, dataOut := (s.port p).dataOut ++ List.replicate n 0 }
      if s.power.geometrySweep = true ∧ (s.port p).held ≠ [] then
        s.setPort p { q with held := (s.port p).held ++ [.untaken] }
      else s.setPort p { q with result := .badFrame, flags := (s.port p).flags ||| 0x004 } := by
  by_cases h : s.power.geometrySweep = true ∧ (s.port p).held ≠ [] <;>
    simp [State.refuseUntaken, State.clockZeros, State.closeTransaction, State.hold, State.refuseFrame, State.setResult_eq, Result.code, h]

/-- A byte that its row has no use for: at most one zero goes out (R61, R166), and the mark of a transaction that has
not met READY high follows it. -/
theorem State.clockUntaken_eq (s : State) (p : Port) :
    s.clockUntaken p = s ∨
    ((s.port p).txn = .discarded ∧
      s.clockUntaken p = s.setPort p { s.port p with dataOut := (s.port p).dataOut ++ [0] }) ∨
    ∃ heard, (s.port p).txn = .opened heard ∧ s.ready p = false ∧ s.clockUntaken p = s.setPort p
      { s.port p with dataOut := (s.port p).dataOut ++ [0]
                      outMark := if heard then (s.port p).outMark else (s.port p).dataOut.length + 1 } := by
  unfold State.clockUntaken
  split
  · rename_i h; exact .inr (.inl ⟨h, rfl⟩)
  · rename_i heard h
    split
    · exact .inl rfl
    · rename_i hr
      exact .inr (.inr ⟨heard, h, by simpa using hr, by simp [State.clockZeros]⟩)
  · exact .inl rfl

/-- A byte taken ahead: its response byte goes out and the mark follows it (R171; Log 6). -/
theorem State.takeAhead_eq (s : State) (p : Port) :
    s.takeAhead p = s.setPort p { s.port p with
      dataOut := (s.port p).dataOut ++ [(s.port p).response[(s.port p).outCount]?.getD 0]
      outCount := (s.port p).outCount + 1, outMark := (s.port p).dataOut.length + 1 } := by
  simp [State.takeAhead, State.sendResponseByte]

/-- A held transaction is taken (R61, R62, R169). -/
theorem State.takeHeld_eq (p : Port) (s : State) (h : Held) :
    State.takeHeld p s h = match h with
      | .command i => effectOf i s
      | .writeEnd r => s.setPort p { s.port p with
          result := r, flags := if 16 ≤ r.code.toNat then (s.port p).flags ||| 0x004 else (s.port p).flags }
      | .untaken => s.setPort p { s.port p with
          consent := false, result := .badFrame, flags := (s.port p).flags ||| 0x004 } := by
  cases h <;> simp [State.takeHeld, State.refuseFrame, State.setResult_eq, Result.code]

/-- A port that holds nothing has nothing to take. -/
theorem State.applyHeld_none (s : State) (p : Port) (h : (s.port p).held = []) : s.applyHeld p = s := by
  have hp : { s.port p with held := [] } = s.port p := by rw [← h]
  simp [State.applyHeld, h, hp]

/-- A command of which no byte was taken is refused BAD_FRAME, in its turn (R168, R169; Log 5). -/
theorem State.transact_unheard (s : State) (p : Port) (fr : Frame) (req : List Byte) (i : Instr) (e : State → State)
    (h : (s.port p).txn = .opened false) :
    s.transact p fr req i e = s.refuseUntaken p (req.length + 1) := by
  have h1 : s.opened p = s := s.opened_of_open p (by simp [h])
  simp only [State.transact, h1, h]

/-- A command of a discarded transaction has no effect beyond its select; its bytes clock out zeros (R161, R166, R69). -/
theorem State.transact_discarded (s : State) (p : Port) (fr : Frame) (req : List Byte) (i : Instr) (e : State → State)
    (h : (s.port p).txn = .discarded) :
    s.transact p fr req i e = s.setPort p { s.port p with
      txn := .closed, dataOut := (s.port p).dataOut ++ List.replicate (req.length + 1) 0 } := by
  have h1 : s.opened p = s := s.opened_of_open p (by simp [h])
  simp only [State.transact, h1, h]
  simp [State.closeDiscarded, State.clockZeros]

/-- A good command that ends during a geometry sweep is held (R61), a SLEEP with the consent kept (R164). -/
theorem State.transact_held (s : State) (p : Port) (fr : Frame) (req : List Byte) (i : Instr) (e : State → State)
    (h : (s.port p).txn = .opened true) (hf : fr.fits req.length = true) (hs : s.power.geometrySweep = true) :
    s.transact p fr req i e = s.setPort p { s.risen p (req.length + 1) with
      consent := isSleep i && (s.port p).consent, held := (s.port p).held ++ [.command i] } := by
  have h1 : s.opened p = s := s.opened_of_open p (by simp [h])
  simp only [State.transact, h1, h]
  simp [hf, State.closeTransaction, State.hold, hs, State.risen]

end Sys2Proof.Machine
end

