-- ==== Sys2Proof/Laws/Settle.lean ====
section
/-! SUPPORT. What the operations that follow every event leave alone: `State.settle` and its parts change nothing but
the Power Controller, the stale timer and the note that a transaction has met READY.
-/

namespace Sys2Proof.Machine

@[simp] theorem State.endResetWait_width (s : State) : (s.endResetWait).width = s.width := by
  unfold State.endResetWait; split <;> rfl
@[simp] theorem State.endResetWait_height (s : State) : (s.endResetWait).height = s.height := by
  unfold State.endResetWait; split <;> rfl
@[simp] theorem State.endResetWait_image (s : State) : (s.endResetWait).image = s.image := by
  unfold State.endResetWait; split <;> rfl
@[simp] theorem State.endResetWait_pixels (s : State) : (s.endResetWait).pixels = s.pixels := by
  unfold State.endResetWait; split <;> rfl
@[simp] theorem State.endResetWait_lastGrant (s : State) : (s.endResetWait).lastGrant = s.lastGrant := by
  unfold State.endResetWait; split <;> rfl
@[simp] theorem State.endResetWait_table (s : State) : (s.endResetWait).table = s.table := by
  unfold State.endResetWait; split <;> rfl
@[simp] theorem State.endResetWait_queue (s : State) : (s.endResetWait).queue = s.queue := by
  unfold State.endResetWait; split <;> rfl
@[simp] theorem State.endResetWait_zones (s : State) : (s.endResetWait).zones = s.zones := by
  unfold State.endResetWait; split <;> rfl
@[simp] theorem State.endResetWait_zoneDuration (s : State) : (s.endResetWait).zoneDuration = s.zoneDuration := by
  unfold State.endResetWait; split <;> rfl
@[simp] theorem State.endResetWait_lanes (s : State) : (s.endResetWait).lanes = s.lanes := by
  unfold State.endResetWait; split <;> rfl
@[simp] theorem State.endResetWait_surveyList (s : State) : (s.endResetWait).surveyList = s.surveyList := by
  unfold State.endResetWait; split <;> rfl
@[simp] theorem State.endResetWait_survey (s : State) : (s.endResetWait).survey = s.survey := by
  unfold State.endResetWait; split <;> rfl
@[simp] theorem State.endResetWait_residueLimit (s : State) : (s.endResetWait).residueLimit = s.residueLimit := by
  unfold State.endResetWait; split <;> rfl
@[simp] theorem State.endResetWait_wearLimit (s : State) : (s.endResetWait).wearLimit = s.wearLimit := by
  unfold State.endResetWait; split <;> rfl
@[simp] theorem State.endResetWait_armingList (s : State) : (s.endResetWait).armingList = s.armingList := by
  unfold State.endResetWait; split <;> rfl
@[simp] theorem State.endResetWait_retireList (s : State) : (s.endResetWait).retireList = s.retireList := by
  unfold State.endResetWait; split <;> rfl
@[simp] theorem State.endResetWait_retire (s : State) : (s.endResetWait).retire = s.retire := by
  unfold State.endResetWait; split <;> rfl
@[simp] theorem State.endResetWait_scan (s : State) : (s.endResetWait).scan = s.scan := by
  unfold State.endResetWait; split <;> rfl
@[simp] theorem State.endResetWait_supply (s : State) : (s.endResetWait).supply = s.supply := by
  unfold State.endResetWait; split <;> rfl
@[simp] theorem State.endResetWait_pending (s : State) : (s.endResetWait).pending = s.pending := by
  unfold State.endResetWait; split <;> rfl
@[simp] theorem State.endResetWait_portA (s : State) : (s.endResetWait).portA = s.portA := by
  unfold State.endResetWait; split <;> rfl
@[simp] theorem State.endResetWait_portB (s : State) : (s.endResetWait).portB = s.portB := by
  unfold State.endResetWait; split <;> rfl
@[simp] theorem State.endResetWait_temp (s : State) : (s.endResetWait).temp = s.temp := by
  unfold State.endResetWait; split <;> rfl

@[simp] theorem State.noteReady_width (s : State) (p : Port) : (s.noteReady p).width = s.width := by
  unfold State.noteReady; split <;> first | rfl | (split <;> simp)
@[simp] theorem State.noteReady_height (s : State) (p : Port) : (s.noteReady p).height = s.height := by
  unfold State.noteReady; split <;> first | rfl | (split <;> simp)
@[simp] theorem State.noteReady_image (s : State) (p : Port) : (s.noteReady p).image = s.image := by
  unfold State.noteReady; split <;> first | rfl | (split <;> simp)
@[simp] theorem State.noteReady_pixels (s : State) (p : Port) : (s.noteReady p).pixels = s.pixels := by
  unfold State.noteReady; split <;> first | rfl | (split <;> simp)
@[simp] theorem State.noteReady_lastGrant (s : State) (p : Port) : (s.noteReady p).lastGrant = s.lastGrant := by
  unfold State.noteReady; split <;> first | rfl | (split <;> simp)
@[simp] theorem State.noteReady_table (s : State) (p : Port) : (s.noteReady p).table = s.table := by
  unfold State.noteReady; split <;> first | rfl | (split <;> simp)
@[simp] theorem State.noteReady_queue (s : State) (p : Port) : (s.noteReady p).queue = s.queue := by
  unfold State.noteReady; split <;> first | rfl | (split <;> simp)
@[simp] theorem State.noteReady_zones (s : State) (p : Port) : (s.noteReady p).zones = s.zones := by
  unfold State.noteReady; split <;> first | rfl | (split <;> simp)
@[simp] theorem State.noteReady_zoneDuration (s : State) (p : Port) : (s.noteReady p).zoneDuration = s.zoneDuration := by
  unfold State.noteReady; split <;> first | rfl | (split <;> simp)
@[simp] theorem State.noteReady_lanes (s : State) (p : Port) : (s.noteReady p).lanes = s.lanes := by
  unfold State.noteReady; split <;> first | rfl | (split <;> simp)
@[simp] theorem State.noteReady_surveyList (s : State) (p : Port) : (s.noteReady p).surveyList = s.surveyList := by
  unfold State.noteReady; split <;> first | rfl | (split <;> simp)
@[simp] theorem State.noteReady_survey (s : State) (p : Port) : (s.noteReady p).survey = s.survey := by
  unfold State.noteReady; split <;> first | rfl | (split <;> simp)
@[simp] theorem State.noteReady_residueLimit (s : State) (p : Port) : (s.noteReady p).residueLimit = s.residueLimit := by
  unfold State.noteReady; split <;> first | rfl | (split <;> simp)
@[simp] theorem State.noteReady_wearLimit (s : State) (p : Port) : (s.noteReady p).wearLimit = s.wearLimit := by
  unfold State.noteReady; split <;> first | rfl | (split <;> simp)
@[simp] theorem State.noteReady_armingList (s : State) (p : Port) : (s.noteReady p).armingList = s.armingList := by
  unfold State.noteReady; split <;> first | rfl | (split <;> simp)
@[simp] theorem State.noteReady_retireList (s : State) (p : Port) : (s.noteReady p).retireList = s.retireList := by
  unfold State.noteReady; split <;> first | rfl | (split <;> simp)
@[simp] theorem State.noteReady_retire (s : State) (p : Port) : (s.noteReady p).retire = s.retire := by
  unfold State.noteReady; split <;> first | rfl | (split <;> simp)
@[simp] theorem State.noteReady_scan (s : State) (p : Port) : (s.noteReady p).scan = s.scan := by
  unfold State.noteReady; split <;> first | rfl | (split <;> simp)
@[simp] theorem State.noteReady_supply (s : State) (p : Port) : (s.noteReady p).supply = s.supply := by
  unfold State.noteReady; split <;> first | rfl | (split <;> simp)
@[simp] theorem State.noteReady_pending (s : State) (p : Port) : (s.noteReady p).pending = s.pending := by
  unfold State.noteReady; split <;> first | rfl | (split <;> simp)
@[simp] theorem State.noteReady_temp (s : State) (p : Port) : (s.noteReady p).temp = s.temp := by
  unfold State.noteReady; split <;> first | rfl | (split <;> simp)
@[simp] theorem State.noteReady_power (s : State) (p : Port) : (s.noteReady p).power = s.power := by
  unfold State.noteReady; split <;> first | rfl | (split <;> simp)

@[simp] theorem State.judgePower_width (s : State) : (s.judgePower).width = s.width := by
  unfold State.judgePower; repeat' (first | rfl | split)
@[simp] theorem State.judgePower_height (s : State) : (s.judgePower).height = s.height := by
  unfold State.judgePower; repeat' (first | rfl | split)
@[simp] theorem State.judgePower_image (s : State) : (s.judgePower).image = s.image := by
  unfold State.judgePower; repeat' (first | rfl | split)
@[simp] theorem State.judgePower_pixels (s : State) : (s.judgePower).pixels = s.pixels := by
  unfold State.judgePower; repeat' (first | rfl | split)
@[simp] theorem State.judgePower_lastGrant (s : State) : (s.judgePower).lastGrant = s.lastGrant := by
  unfold State.judgePower; repeat' (first | rfl | split)
@[simp] theorem State.judgePower_table (s : State) : (s.judgePower).table = s.table := by
  unfold State.judgePower; repeat' (first | rfl | split)
@[simp] theorem State.judgePower_queue (s : State) : (s.judgePower).queue = s.queue := by
  unfold State.judgePower; repeat' (first | rfl | split)
@[simp] theorem State.judgePower_zones (s : State) : (s.judgePower).zones = s.zones := by
  unfold State.judgePower; repeat' (first | rfl | split)
@[simp] theorem State.judgePower_zoneDuration (s : State) : (s.judgePower).zoneDuration = s.zoneDuration := by
  unfold State.judgePower; repeat' (first | rfl | split)
@[simp] theorem State.judgePower_lanes (s : State) : (s.judgePower).lanes = s.lanes := by
  unfold State.judgePower; repeat' (first | rfl | split)
@[simp] theorem State.judgePower_surveyList (s : State) : (s.judgePower).surveyList = s.surveyList := by
  unfold State.judgePower; repeat' (first | rfl | split)
@[simp] theorem State.judgePower_survey (s : State) : (s.judgePower).survey = s.survey := by
  unfold State.judgePower; repeat' (first | rfl | split)
@[simp] theorem State.judgePower_residueLimit (s : State) : (s.judgePower).residueLimit = s.residueLimit := by
  unfold State.judgePower; repeat' (first | rfl | split)
@[simp] theorem State.judgePower_wearLimit (s : State) : (s.judgePower).wearLimit = s.wearLimit := by
  unfold State.judgePower; repeat' (first | rfl | split)
@[simp] theorem State.judgePower_armingList (s : State) : (s.judgePower).armingList = s.armingList := by
  unfold State.judgePower; repeat' (first | rfl | split)
@[simp] theorem State.judgePower_retireList (s : State) : (s.judgePower).retireList = s.retireList := by
  unfold State.judgePower; repeat' (first | rfl | split)
@[simp] theorem State.judgePower_retire (s : State) : (s.judgePower).retire = s.retire := by
  unfold State.judgePower; repeat' (first | rfl | split)
@[simp] theorem State.judgePower_scan (s : State) : (s.judgePower).scan = s.scan := by
  unfold State.judgePower; repeat' (first | rfl | split)
@[simp] theorem State.judgePower_supply (s : State) : (s.judgePower).supply = s.supply := by
  unfold State.judgePower; repeat' (first | rfl | split)
@[simp] theorem State.judgePower_pending (s : State) : (s.judgePower).pending = s.pending := by
  unfold State.judgePower; repeat' (first | rfl | split)
@[simp] theorem State.judgePower_portA (s : State) : (s.judgePower).portA = s.portA := by
  unfold State.judgePower; repeat' (first | rfl | split)
@[simp] theorem State.judgePower_portB (s : State) : (s.judgePower).portB = s.portB := by
  unfold State.judgePower; repeat' (first | rfl | split)

@[simp] theorem State.settle_width (s : State) : s.settle.width = s.width := by simp [State.settle]
@[simp] theorem State.settle_height (s : State) : s.settle.height = s.height := by simp [State.settle]
@[simp] theorem State.settle_image (s : State) : s.settle.image = s.image := by simp [State.settle]
@[simp] theorem State.settle_pixels (s : State) : s.settle.pixels = s.pixels := by simp [State.settle]
@[simp] theorem State.settle_lastGrant (s : State) : s.settle.lastGrant = s.lastGrant := by simp [State.settle]
@[simp] theorem State.settle_table (s : State) : s.settle.table = s.table := by simp [State.settle]
@[simp] theorem State.settle_queue (s : State) : s.settle.queue = s.queue := by simp [State.settle]
@[simp] theorem State.settle_zones (s : State) : s.settle.zones = s.zones := by simp [State.settle]
@[simp] theorem State.settle_zoneDuration (s : State) : s.settle.zoneDuration = s.zoneDuration := by simp [State.settle]
@[simp] theorem State.settle_lanes (s : State) : s.settle.lanes = s.lanes := by simp [State.settle]
@[simp] theorem State.settle_surveyList (s : State) : s.settle.surveyList = s.surveyList := by simp [State.settle]
@[simp] theorem State.settle_survey (s : State) : s.settle.survey = s.survey := by simp [State.settle]
@[simp] theorem State.settle_residueLimit (s : State) : s.settle.residueLimit = s.residueLimit := by simp [State.settle]
@[simp] theorem State.settle_wearLimit (s : State) : s.settle.wearLimit = s.wearLimit := by simp [State.settle]
@[simp] theorem State.settle_armingList (s : State) : s.settle.armingList = s.armingList := by simp [State.settle]
@[simp] theorem State.settle_retireList (s : State) : s.settle.retireList = s.retireList := by simp [State.settle]
@[simp] theorem State.settle_retire (s : State) : s.settle.retire = s.retire := by simp [State.settle]
@[simp] theorem State.settle_scan (s : State) : s.settle.scan = s.scan := by simp [State.settle]
@[simp] theorem State.settle_supply (s : State) : s.settle.supply = s.supply := by simp [State.settle]
@[simp] theorem State.settle_pending (s : State) : s.settle.pending = s.pending := by simp [State.settle]

@[simp] theorem State.settle_lane (s : State) (l : LaneId) : s.settle.lane l = s.lane l := by simp [State.lane]

@[simp] theorem State.settle_zone (s : State) (z : Fin 4) : s.settle.zone z = s.zone z := by simp [State.zone]

@[simp] theorem State.endResetWait_port (s : State) (q : Port) : s.endResetWait.port q = s.port q := by
  cases q <;> simp [State.port]

@[simp] theorem State.judgePower_port (s : State) (q : Port) : s.judgePower.port q = s.port q := by
  cases q <;> simp [State.port]

/-- Noting READY changes one transaction at most, and never opens or closes one (Log 5). -/
theorem State.noteReady_port (s : State) (p q : Port) : ∃ t : Transaction,
    (s.noteReady p).port q = { s.port q with txn := t } ∧ (t = .closed ↔ (s.port q).txn = .closed) ∧
    (((s.port q).txn ≠ .opened false ∨ q ≠ p) → t = (s.port q).txn) := by
  unfold State.noteReady
  split
  · split
    · by_cases h : q = p
      · subst h
        exact ⟨.opened true, by simp_all⟩
      · exact ⟨(s.port q).txn, by simp [h]⟩
    · exact ⟨(s.port q).txn, by simp⟩
  · exact ⟨(s.port q).txn, by simp⟩

/-- What follows an event leaves every port as it was, but that an opened transaction may have met READY (Log 5). -/
theorem State.settle_port (s : State) (q : Port) : ∃ t : Transaction,
    s.settle.port q = { s.port q with txn := t } ∧ (t = .closed ↔ (s.port q).txn = .closed) ∧
    ((s.port q).txn ≠ .opened false → t = (s.port q).txn) := by
  obtain ⟨t, h1, h2, h3⟩ := s.endResetWait.noteReady_port .a q
  obtain ⟨u, h4, h5, h6⟩ := (s.endResetWait.noteReady .a).noteReady_port .b q
  refine ⟨u, ?_, ?_, ?_⟩
  · simp [State.settle, h4, h1]
  · simp_all
  · intro h
    simp_all

end Sys2Proof.Machine
end

