-- ==== Sys2Proof/Laws/Operands.lean ====
section
/-! SUPPORT. What the operand forms read back: numbers from their bytes, rectangles from their coordinates, and the
commands that act at the rise of their select.
-/

namespace Sys2Proof.Machine

/-! ## Bytes and rectangles -/

theorem word16_ofNat (n : Nat) (h : n < 65536) : word16 (BitVec.ofNat 8 (n / 256)) (BitVec.ofNat 8 n) = n := by
  simp [word16]; omega

theorem bytesOf_two (n : Nat) : bytesOf 2 n = [BitVec.ofNat 8 (n / 256), BitVec.ofNat 8 n] := by simp [bytesOf]

@[simp] theorem bytesOf_length (k n : Nat) : (bytesOf k n).length = k := by
  induction k with
  | zero => rfl
  | succ k ih => simp [bytesOf, ih]

@[simp] theorem coordinates_length (x0 y0 x1 y1 : Nat) : (coordinates x0 y0 x1 y1).length = 8 := by
  simp [coordinates]

/-- Coordinates read back as the rectangle they were sent for. -/
theorem parseRect_coordinates (x0 y0 x1 y1 : Nat) (h0 : x0 < 65536) (h1 : y0 < 65536) (h2 : x1 < 65536)
    (h3 : y1 < 65536) : parseRect (coordinates x0 y0 x1 y1) = ⟨x0, y0, x1, y1⟩ := by
  simp [coordinates, bytesOf_two, parseRect, word16_ofNat, *]

/-- A clamped rectangle gives CLAMPED exactly when a coordinate was outside (R57, R177). -/
theorem clampResult_area (c : PortContext) (w h x0 y0 x1 y1 : Nat) :
    clampResult (clampToArea c w h ⟨x0, y0, x1, y1⟩ ≠ ⟨x0, y0, x1, y1⟩) =
      if x0 ≤ portWidth c.orientation w h - 1 ∧ y0 ≤ portHeight c.orientation w h - 1 ∧
        x1 ≤ portWidth c.orientation w h - 1 ∧ y1 ≤ portHeight c.orientation w h - 1 then .ok else .clamped := by
  have h1 : (clampToArea c w h ⟨x0, y0, x1, y1⟩ ≠ ⟨x0, y0, x1, y1⟩) ↔
      ¬ (x0 ≤ portWidth c.orientation w h - 1 ∧ y0 ≤ portHeight c.orientation w h - 1 ∧
        x1 ≤ portWidth c.orientation w h - 1 ∧ y1 ≤ portHeight c.orientation w h - 1) := by simp [clampToArea]
  simp only [h1, clampResult]
  by_cases h2 : x0 ≤ portWidth c.orientation w h - 1 ∧ y0 ≤ portHeight c.orientation w h - 1 ∧
    x1 ≤ portWidth c.orientation w h - 1 ∧ y1 ≤ portHeight c.orientation w h - 1 <;> simp [h2]

/-! ## Commands at the rise of their select -/

/-- A command with a request is its transaction, with its whole effect (R169). -/
theorem exec_request {i : Instr} {p : Port} {req : List Byte} {more : Bool} {n : Nat}
    (h : requestOf i = some (p, req, more, n)) (s : State) :
    exec i s = .next (s.transact p (if more then .query n else .fixed n) req i (effectOf i)).settle := by
  cases i <;> simp [requestOf] at h <;> obtain ⟨rfl, rfl, rfl, rfl⟩ := h <;> rfl

/-- A command of a port is its transaction, with some effect. -/
theorem exec_portCommand {i : Instr} {p : Port} (h : portOfCommand i = some p) :
    ∃ fr req e, ∀ s, exec i s = .next (s.transact p fr req i e).settle := by
  cases i <;> simp [portOfCommand, requestOf] at h <;> subst h <;> exact ⟨_, _, _, fun _ => rfl⟩

/-- A select that has fallen is low. -/
theorem State.opened_txn (s : State) (p : Port) : ((s.opened p).port p).txn ≠ .closed := by
  by_cases h : (s.port p).txn = .closed
  · intro hc
    obtain ⟨t, h1, h2, -⟩ := (s.selectFalls p).settle_port p
    rw [State.opened, if_pos (by simp [State.selectHigh, h]), h1] at hc
    replace hc := h2.1 hc
    revert hc
    cases hp : s.power.state <;> cases p <;>
      simp [State.selectFalls, State.wake, State.goStale, State.raiseBoth_eq, State.raise_eq, State.setResult_eq,
        State.mapPorts, State.port, hp] <;>
      split <;> simp
  · rwa [State.opened_of_open s p h]

end Sys2Proof.Machine
end

