-- ==== Sys2Proof/Laws/Scheduler.lean ====
section
/-! SUPPORT. What a reconsideration can do (R77 to R79, R95): it changes the queue, the lanes and the survey list, and
reads nothing of the ports.
-/

namespace Sys2Proof.Machine

/-! ## The Scheduler reads nothing of the ports -/

@[simp] theorem State.setPort_unobstructed (s : State) (p : Port) (v : PortState) (q : Request) :
    (s.setPort p v).unobstructed q = s.unobstructed q := by simp [State.unobstructed]

@[simp] theorem State.setPort_eligible (s : State) (p : Port) (v : PortState) (older : List Request) (q : Request) :
    (s.setPort p v).eligible older q = s.eligible older q := by simp [State.eligible]

@[simp] theorem State.setPort_eligibleAt (s : State) (p : Port) (v : PortState) (i : Nat) :
    (s.setPort p v).eligibleAt i = s.eligibleAt i := by simp [State.eligibleAt]

@[simp] theorem State.setPort_choose (s : State) (p : Port) (v : PortState) : (s.setPort p v).choose = s.choose := by
  have h2 : (s.setPort p v).urgentAt = s.urgentAt := funext fun i => by simp [State.urgentAt]
  simp [State.choose, h2]

@[simp] theorem State.setPort_freeLane (s : State) (p : Port) (v : PortState) :
    (s.setPort p v).freeLane = s.freeLane := by simp [State.freeLane]

theorem State.setPort_allocateNext (s : State) (p : Port) (v : PortState) :
    (s.setPort p v).allocateNext = s.allocateNext.map fun t => t.setPort p v := by
  have h : ∀ i q l, (s.setPort p v).allocate i q l = (s.allocate i q l).setPort p v := by
    intro i q l; cases p <;> rfl
  simp only [State.allocateNext, State.setPort_choose, State.setPort_queue, State.setPort_freeLane, h]
  cases s.choose with
  | none => rfl
  | some i =>
    simp only [Option.bind_some]
    cases s.queue[i]? with
    | none => rfl
    | some q => cases s.freeLane <;> rfl

theorem reconsiderUpTo_setPort (n : Nat) (p : Port) (v : PortState) :
    ∀ s : State, reconsiderUpTo n (s.setPort p v) = (reconsiderUpTo n s).setPort p v := by
  induction n with
  | zero => intro s; rfl
  | succ n ih =>
    intro s
    simp only [reconsiderUpTo, State.setPort_allocateNext]
    cases s.allocateNext with
    | none => rfl
    | some t => simp [ih]

/-- A reconsideration and a change of a port do not touch each other. -/
theorem State.setPort_reconsider (s : State) (p : Port) (v : PortState) :
    (s.setPort p v).reconsider = s.reconsider.setPort p v := reconsiderUpTo_setPort 15 p v s

/-! ## What a reconsideration changes -/

theorem State.allocateNext_eq (s t : State) (h : s.allocateNext = some t) :
    ∃ i q l, s.choose = some i ∧ s.queue[i]? = some q ∧ s.freeLane = some l ∧ t = s.allocate i q l := by
  simp only [State.allocateNext, Option.bind_eq_some_iff, Option.map_eq_some_iff] at h
  obtain ⟨i, h1, q, h2, l, h3, rfl⟩ := h
  exact ⟨i, q, l, h1, h2, h3, rfl⟩

/-- One allocation after another: what every allocation keeps, a reconsideration keeps (R77). -/
theorem State.reconsider_keeps (P : State → Prop)
    (step : ∀ s i q l, P s → s.choose = some i → s.queue[i]? = some q → s.freeLane = some l → P (s.allocate i q l))
    (s : State) (h : P s) : P s.reconsider := by
  suffices ∀ n, ∀ s, P s → P (reconsiderUpTo n s) from this 15 s h
  intro n
  induction n with
  | zero => intro s h; exact h
  | succ n ih =>
    intro s h
    simp only [reconsiderUpTo]
    split
    · rename_i t ht
      obtain ⟨i, q, l, h1, h2, h3, rfl⟩ := s.allocateNext_eq t ht
      exact ih _ (step s i q l h h1 h2 h3)
    · exact h

/-- A reconsideration changes nothing but the queue, the lanes and the survey list. -/
theorem State.reconsider_eq (s : State) : ∃ q lanes ls,
    s.reconsider = ((s.withQueue q).withLanes lanes).withSurveyList ls := by
  refine State.reconsider_keeps (fun t => ∃ q lanes ls, t = ((s.withQueue q).withLanes lanes).withSurveyList ls) ?_ s
    ⟨s.queue, s.lanes, s.surveyList, rfl⟩
  rintro t i q l ⟨a, b, c, rfl⟩ - - -
  exact ⟨_, _, _, rfl⟩

@[simp] theorem State.reconsider_width (s : State) : s.reconsider.width = s.width := by
  obtain ⟨q, l, ls, h⟩ := s.reconsider_eq; simp [h]

@[simp] theorem State.reconsider_height (s : State) : s.reconsider.height = s.height := by
  obtain ⟨q, l, ls, h⟩ := s.reconsider_eq; simp [h]

@[simp] theorem State.reconsider_image (s : State) : s.reconsider.image = s.image := by
  obtain ⟨q, l, ls, h⟩ := s.reconsider_eq; simp [h]

@[simp] theorem State.reconsider_pixels (s : State) : s.reconsider.pixels = s.pixels := by
  obtain ⟨q, l, ls, h⟩ := s.reconsider_eq; simp [h]

@[simp] theorem State.reconsider_portA (s : State) : s.reconsider.portA = s.portA := by
  obtain ⟨q, l, ls, h⟩ := s.reconsider_eq; simp [h]

@[simp] theorem State.reconsider_portB (s : State) : s.reconsider.portB = s.portB := by
  obtain ⟨q, l, ls, h⟩ := s.reconsider_eq; simp [h]

@[simp] theorem State.reconsider_lastGrant (s : State) : s.reconsider.lastGrant = s.lastGrant := by
  obtain ⟨q, l, ls, h⟩ := s.reconsider_eq; simp [h]

@[simp] theorem State.reconsider_table (s : State) : s.reconsider.table = s.table := by
  obtain ⟨q, l, ls, h⟩ := s.reconsider_eq; simp [h]

@[simp] theorem State.reconsider_temp (s : State) : s.reconsider.temp = s.temp := by
  obtain ⟨q, l, ls, h⟩ := s.reconsider_eq; simp [h]

@[simp] theorem State.reconsider_zones (s : State) : s.reconsider.zones = s.zones := by
  obtain ⟨q, l, ls, h⟩ := s.reconsider_eq; simp [h]

@[simp] theorem State.reconsider_zoneDuration (s : State) : s.reconsider.zoneDuration = s.zoneDuration := by
  obtain ⟨q, l, ls, h⟩ := s.reconsider_eq; simp [h]

@[simp] theorem State.reconsider_survey (s : State) : s.reconsider.survey = s.survey := by
  obtain ⟨q, l, ls, h⟩ := s.reconsider_eq; simp [h]

@[simp] theorem State.reconsider_residueLimit (s : State) : s.reconsider.residueLimit = s.residueLimit := by
  obtain ⟨q, l, ls, h⟩ := s.reconsider_eq; simp [h]

@[simp] theorem State.reconsider_wearLimit (s : State) : s.reconsider.wearLimit = s.wearLimit := by
  obtain ⟨q, l, ls, h⟩ := s.reconsider_eq; simp [h]

@[simp] theorem State.reconsider_armingList (s : State) : s.reconsider.armingList = s.armingList := by
  obtain ⟨q, l, ls, h⟩ := s.reconsider_eq; simp [h]

@[simp] theorem State.reconsider_retireList (s : State) : s.reconsider.retireList = s.retireList := by
  obtain ⟨q, l, ls, h⟩ := s.reconsider_eq; simp [h]

@[simp] theorem State.reconsider_retire (s : State) : s.reconsider.retire = s.retire := by
  obtain ⟨q, l, ls, h⟩ := s.reconsider_eq; simp [h]

@[simp] theorem State.reconsider_scan (s : State) : s.reconsider.scan = s.scan := by
  obtain ⟨q, l, ls, h⟩ := s.reconsider_eq; simp [h]

@[simp] theorem State.reconsider_supply (s : State) : s.reconsider.supply = s.supply := by
  obtain ⟨q, l, ls, h⟩ := s.reconsider_eq; simp [h]

@[simp] theorem State.reconsider_power (s : State) : s.reconsider.power = s.power := by
  obtain ⟨q, l, ls, h⟩ := s.reconsider_eq; simp [h]

@[simp] theorem State.reconsider_pending (s : State) : s.reconsider.pending = s.pending := by
  obtain ⟨q, l, ls, h⟩ := s.reconsider_eq; simp [h]

@[simp] theorem State.reconsider_port (s : State) (p : Port) : s.reconsider.port p = s.port p := by
  cases p <;> simp [State.port]

@[simp] theorem State.reconsider_zone (s : State) (z : Fin 4) : s.reconsider.zone z = s.zone z := by simp [State.zone]

/-- Setting a port's result commutes with a reconsideration. -/
theorem State.setResult_reconsider (s : State) (p : Port) (r : Result) :
    s.reconsider.setResult p r = (s.setResult p r).reconsider := by
  simp [State.setResult_eq, State.setPort_reconsider]

end Sys2Proof.Machine
end

