-- ==== Sys2Proof/Laws/Stores.lean ====
section
/-! SUPPORT. The laws of the sparse stores: what a read finds after a write, and that every operation keeps the
canonical form.
-/

namespace Sys2Proof.Machine

/-! ## Canonical form -/

/-- A canonical store above a bound is canonical above every lower one. -/
theorem Store.wfFrom_weaken {α : Type} [DecidableEq α] (d : α) (m : Store α) (i j : Nat) (hij : i ≤ j)
    (h : Store.wfFrom d (some j) m = true) : Store.wfFrom d (some i) m = true := by
  cases m with
  | nil => rfl
  | cons c m =>
    obtain ⟨k, v⟩ := c
    simp only [Store.wfFrom, Bool.and_eq_true, decide_eq_true_eq] at h ⊢
    exact ⟨⟨by omega, h.1.2⟩, h.2⟩

/-- An address at or below the bound of a canonical store is not listed. -/
theorem Store.read_below {α : Type} [DecidableEq α] (d : α) (m : Store α) (a j : Nat) (haj : a ≤ j)
    (h : Store.wfFrom d (some j) m = true) : Store.read d m a = d := by
  induction m generalizing j with
  | nil => rfl
  | cons c m ih =>
    obtain ⟨k, v⟩ := c
    simp only [Store.wfFrom, Bool.and_eq_true, decide_eq_true_eq] at h
    rw [Store.read, if_neg (by omega)]
    exact ih k (by omega) h.2

/-- A write keeps the canonical form above a bound below its address. -/
theorem Store.wfFrom_write {α : Type} [DecidableEq α] (d : α) (m : Store α) (a : Nat) (v : α) (b : Option Nat)
    (hb : ∀ j, b = some j → j < a) (h : Store.wfFrom d b m = true) : Store.wfFrom d b (Store.write d m a v) = true := by
  induction m generalizing b with
  | nil =>
    unfold Store.write
    split
    · rfl
    · cases b <;> simp_all [Store.wfFrom]
  | cons c m ih =>
    obtain ⟨k, w⟩ := c
    simp only [Store.wfFrom, Bool.and_eq_true, decide_eq_true_eq] at h
    unfold Store.write
    split
    · split
      · simp [Store.wfFrom, h]
      · rename_i hak hv
        cases b <;> simp_all [Store.wfFrom]
    · split
      · rename_i hka
        subst hka
        split
        · cases b with
          | none =>
            cases m with
            | nil => rfl
            | cons c' m => simp_all [Store.wfFrom]
          | some j => exact Store.wfFrom_weaken d m j a (Nat.le_of_lt (hb j rfl)) h.2
        · simp_all [Store.wfFrom]
      · simp only [Store.wfFrom, Bool.and_eq_true, decide_eq_true_eq]
        refine ⟨h.1, ih (some k) ?_ h.2⟩
        rintro j ⟨⟩
        omega

/-- A write keeps the canonical form. -/
theorem Store.wf_write {α : Type} [DecidableEq α] (d : α) (m : Store α) (a : Nat) (v : α) (h : Store.wf d m = true) :
    Store.wf d (Store.write d m a v) = true :=
  Store.wfFrom_write d m a v none (by simp) h

/-- A change of the cells that touches no address and makes no cell equal to `d` keeps the canonical form. -/
theorem Store.wfFrom_map {α : Type} [DecidableEq α] (d : α) (m : Store α) (f : Nat × α → α) (b : Option Nat)
    (hf : ∀ c ∈ m, f c ≠ d) (h : Store.wfFrom d b m = true) :
    Store.wfFrom d b (m.map fun c => (c.1, f c)) = true := by
  induction m generalizing b with
  | nil => rfl
  | cons c m ih =>
    simp only [List.map_cons, Store.wfFrom, Bool.and_eq_true, decide_eq_true_eq] at h ⊢
    exact ⟨⟨h.1.1, hf c (by simp)⟩, ih (some c.1) (fun c' hc => hf c' (by simp [hc])) h.2⟩

/-! ## Reads after writes -/

/-- A canonical store reads what was written where it was written, and elsewhere as before. -/
theorem Store.read_write_from {α : Type} [DecidableEq α] (d : α) (m : Store α) (a a' : Nat) (v : α) (b : Option Nat)
    (h : Store.wfFrom d b m = true) :
    Store.read d (Store.write d m a v) a' = if a' = a then v else Store.read d m a' := by
  induction m generalizing b with
  | nil =>
    unfold Store.write
    split <;> simp_all [Store.read]
  | cons c m ih =>
    obtain ⟨k, w⟩ := c
    simp only [Store.wfFrom, Bool.and_eq_true, decide_eq_true_eq] at h
    unfold Store.write
    split
    · rename_i hak
      split
      · rename_i hv
        split
        · rename_i haa
          subst haa
          rw [Store.read, if_neg (by omega), hv]
          exact Store.read_below d m a' k (by omega) h.2
        · rfl
      · simp [Store.read]
    · split
      · rename_i hka
        subst hka
        split
        · rename_i hv
          by_cases haa : a' = a
          · subst haa
            rw [if_pos rfl, hv]
            exact Store.read_below d m a' a' (Nat.le_refl _) h.2
          · simp [Store.read, haa]
        · by_cases haa : a' = a <;> simp [Store.read, haa]
      · rename_i h1 h2
        by_cases hk : a' = k
        · subst hk
          simp only [Store.read, if_true]
          rw [if_neg (by omega)]
        · simp only [Store.read, hk, if_false, ih (some k) h.2]

/-- A read after a write (R2, R52). -/
theorem Store.read_write {α : Type} [DecidableEq α] (d : α) (m : Store α) (a a' : Nat) (v : α)
    (h : Store.wf d m = true) : Store.read d (Store.write d m a v) a' = if a' = a then v else Store.read d m a' :=
  Store.read_write_from d m a a' v none h

/-- A read after a change of the cells in place. -/
theorem Store.read_map {α : Type} (d : α) (m : Store α) (f : Nat → α → α) (a : Nat) (hf : f a d = d) :
    Store.read d (m.map fun c => (c.1, f c.1 c.2)) a = f a (Store.read d m a) := by
  induction m with
  | nil => simp [Store.read, hf]
  | cons c m ih =>
    by_cases h : a = c.1
    · subst h; simp [Store.read]
    · simpa [Store.read, h] using ih

/-! ## Panel positions -/

/-- Two columns within the largest geometry at one address are one position (R52). -/
theorem address_inj {x y : Pos} (hx : x.1 < 2048) (hy : y.1 < 2048) : address x = address y ↔ x = y := by
  refine ⟨fun h => ?_, fun h => by rw [h]⟩
  simp only [address, Config.maxWidth] at h
  exact Prod.ext (by omega) (by omega)

/-- The position of an address, as the frame walk finds it (R138). -/
theorem address_pos {x : Pos} (hx : x.1 < 2048) :
    (address x % Config.maxWidth, address x / Config.maxWidth) = x := by
  simp only [address, Config.maxWidth]
  exact Prod.ext (by simp only; omega) (by simp only; omega)

/-- The wanted level after a write (R52, R60). -/
theorem State.setLevel_level (s : State) (x y : Pos) (v : Level) (h : Store.wf sweptLevel s.image = true)
    (hx : x.1 < 2048) (hy : y.1 < 2048) : (s.setLevel x v).level y = if y = x then v else s.level y := by
  simp only [State.level, State.setLevel, State.withImage_image, Store.read_write _ _ _ _ _ h, address_inj hy hx]

/-- The pixel record after a write (R2). -/
theorem State.setPixel_pixel (s : State) (x y : Pos) (r : PixelRecord) (h : Store.wf PixelRecord.swept s.pixels = true)
    (hx : x.1 < 2048) (hy : y.1 < 2048) : (s.setPixel x r).pixel y = if y = x then r else s.pixel y := by
  simp only [State.pixel, State.setPixel, State.withPixels_pixels, Store.read_write _ _ _ _ _ h, address_inj hy hx]

/-! ## Every memory operation keeps the form -/

theorem Memory.wf_iff (s : State) :
    Memory.wf s = true ↔ Store.wf sweptLevel s.image = true ∧ Store.wf PixelRecord.swept s.pixels = true := by
  simp [Memory.wf]

theorem Memory.wf_setLevel (s : State) (x : Pos) (v : Level) (h : Memory.wf s = true) :
    Memory.wf (s.setLevel x v) = true := by
  rw [Memory.wf_iff] at h ⊢
  exact ⟨Store.wf_write _ _ _ _ h.1, h.2⟩

theorem Memory.wf_setPixel (s : State) (x : Pos) (r : PixelRecord) (h : Memory.wf s = true) :
    Memory.wf (s.setPixel x r) = true := by
  rw [Memory.wf_iff] at h ⊢
  exact ⟨h.1, Store.wf_write _ _ _ _ h.2⟩

/-- The sweeps leave both stores empty, which is canonical (R13, R68). -/
theorem Memory.wf_swept (s : State) : Memory.wf ((s.withImage []).withPixels []) = true := rfl

theorem Memory.wf_reset : Memory.wf State.reset = true := rfl

/-- A listed record is what its address reads. -/
theorem Store.read_mem {α : Type} [DecidableEq α] (d : α) (m : Store α) (b : Option Nat)
    (h : Store.wfFrom d b m = true) (c : Nat × α) (hc : c ∈ m) : Store.read d m c.1 = c.2 := by
  induction m generalizing b with
  | nil => simp at hc
  | cons e m ih =>
    obtain ⟨k, v⟩ := e
    simp only [Store.wfFrom, Bool.and_eq_true, decide_eq_true_eq] at h
    rcases List.mem_cons.1 hc with rfl | hm
    · simp [Store.read]
    · have hlt : k ≠ c.1 := by
        intro hk
        subst hk
        have h1 := Store.read_below d m c.1 c.1 (Nat.le_refl _) h.2
        rw [ih (some c.1) h.2 hm] at h1
        clear ih hc h1
        have : ∀ (m : Store α) (j : Nat), Store.wfFrom d (some j) m = true → ∀ c ∈ m, j < c.1 := by
          intro m
          induction m with
          | nil => simp
          | cons e m ih =>
            intro j hj c hc
            obtain ⟨k, v⟩ := e
            simp only [Store.wfFrom, Bool.and_eq_true, decide_eq_true_eq] at hj
            rcases List.mem_cons.1 hc with rfl | hm
            · exact hj.1.1
            · exact Nat.lt_trans hj.1.1 (ih k hj.2 c hm)
        exact Nat.lt_irrefl _ (this m c.1 h.2 c hm)
      simp only [Store.read, if_neg (Ne.symm hlt)]
      exact ih (some k) h.2 hm

end Sys2Proof.Machine
end

