-- ==== Sys2Proof/Laws/Lanes.lean ====
section
/-! SUPPORT. What the shared operations over lanes, their lists and the engines can do (R107, R110, R117, R123, R128),
and what the frame walk leaves in the records (R138 to R140).
-/

namespace Sys2Proof.Machine

/-! ## Lane numbers -/

@[simp] theorem mem_laneIds (l : LaneId) : l ∈ laneIds := by fin_cases l <;> decide

theorem laneIds_nodup : laneIds.Nodup := by decide

@[simp] theorem mem_zoneIds (z : Fin 4) : z ∈ zoneIds := by fin_cases z <;> decide

theorem State.allFree_iff (s : State) : s.allFree = true ↔ ∀ l, (s.lane l).state = .free := by
  simp [State.allFree, List.all_eq_true]

theorem State.noZone_iff (s : State) : s.noZone = true ↔ ∀ z, s.zone z = none := by
  simp [State.noZone, List.all_eq_true, Option.isNone_iff_eq_none]

theorem State.mem_lanesIn (s : State) (st : LaneState) (l : LaneId) : l ∈ s.lanesIn st ↔ (s.lane l).state = st := by
  simp [State.lanesIn]

theorem State.lanesIn_nodup (s : State) (st : LaneState) : (s.lanesIn st).Nodup := laneIds_nodup.filter _

theorem State.waits_turn (s : State) (r : Requester) (h : s.turn = some r) : s.waits r = true :=
  List.find?_some h

/-- A position lies in an active zone of another port (R101). -/
theorem State.zoneHolds_iff (s : State) (o : Port) (x : Pos) :
    s.zoneHolds o x = true ↔ ∃ z zone, s.zone z = some zone ∧ zone.owner ≠ o ∧ zone.rect.has x = true := by
  simp only [State.zoneHolds, List.any_eq_true]
  constructor
  · rintro ⟨z, -, h⟩
    split at h
    · rename_i zone hz
      exact ⟨z, zone, hz, by simpa using h⟩
    · simp at h
  · rintro ⟨z, zone, hz, h⟩
    exact ⟨z, by simp, by simpa [hz] using h⟩

/-! ## The retire list and the Retire Engine (R128) -/

/-- A lane joins the tail of the retire list with its kind and outcome. -/
theorem State.joinRetire_eq (k : RetireKind) (o : UpdateOutcome) (s : State) (l : LaneId) :
    State.joinRetire k o s l =
      (s.setLane l { s.lane l with state := .retiring, kind := some k, outcome := some o }).withRetireList
        (s.retireList ++ [l]) := rfl

/-- An idle engine with a lane on its list starts that lane's walk; any other is left. -/
theorem State.startRetire_eq (s : State) : ∃ w, s.startRetire = s.withRetire w ∧
    (∀ v, s.retire = some v → w = some v) ∧ (s.retire = none → w.map RetireWalk.lane = s.retireList.head?) := by
  unfold State.startRetire
  split
  · rename_i l rest h1 h2
    exact ⟨_, rfl, by simp [h1], by simp [h2]⟩
  · rename_i h
    refine ⟨s.retire, rfl, by simp, fun h1 => ?_⟩
    cases h2 : s.retireList with
    | nil => simp [h1]
    | cons l rest => exact absurd h2 (by simpa [h1] using h l rest)

/-- A PENDING lane ends: its record if it reports, its rest values, its place in the survey list (R110, R113, R114). -/
theorem State.endPending_eq (o : UpdateOutcome) (s : State) (l : LaneId) :
    State.endPending o s l =
      (((if (s.lane l).report then s.appendDone (s.lane l).owner
          (DoneRecord.unsurveyed (s.lane l).tag (s.lane l).requestedMode o) else s).setLane l Lane.rest).withSurveyList
        (s.surveyList.filter fun k => decide (k ≠ l))) := by
  unfold State.endPending State.reportLane
  split <;> simp [State.appendDone_eq]

/-- The walk of the lane being surveyed stops with its decision made (R107, R111). -/
theorem State.closeSurvey_eq (s : State) : s.closeSurvey =
    match s.survey with
    | some w => (s.setLane w.lane ((s.lane w.lane).decided w.mode)).withSurvey none
    | none => s := rfl

/-- What every element of a fold keeps, the fold keeps. -/
theorem foldl_keeps {α β : Type} (P : β → Prop) (f : β → α → β) (hf : ∀ b a, P b → P (f b a)) (l : List α) (b : β)
    (h : P b) : P (l.foldl f b) := by
  induction l generalizing b with
  | nil => exact h
  | cons a l ih => exact ih _ (hf b a h)

/-- The lanes of a list without repeats join the retire list one after another (R123, R128). -/
theorem State.foldl_joinRetire (k : RetireKind) (o : UpdateOutcome) (ls : List LaneId) (s : State) (h : ls.Nodup) :
    ∃ lanes : Vector Lane 15,
      ls.foldl (State.joinRetire k o) s = (s.withLanes lanes).withRetireList (s.retireList ++ ls) ∧
      ∀ l, (s.withLanes lanes).lane l =
        if l ∈ ls then { s.lane l with state := .retiring, kind := some k, outcome := some o } else s.lane l := by
  induction ls generalizing s with
  | nil => exact ⟨s.lanes, by simp [State.withLanes, State.withRetireList], fun l => by simp [State.lane]⟩
  | cons a ls ih =>
    obtain ⟨lanes, h1, h2⟩ := ih (State.joinRetire k o s a) (List.nodup_cons.1 h).2
    refine ⟨lanes, ?_, fun l => ?_⟩
    · simp only [List.foldl_cons, h1]
      simp [State.joinRetire, State.withLanes, State.withRetireList, State.setLane]
    · have h3 := h2 l
      simp only [State.withLanes_lane] at h3 ⊢
      rw [h3]
      have ha : a ∉ ls := (List.nodup_cons.1 h).1
      by_cases hla : l = a
      · subst hla
        simp [ha, State.joinRetire]
      · simp [hla, State.joinRetire]

/-- A change made to every lane of a list without repeats. -/
theorem State.foldl_mapLane (f : LaneId → Lane → Lane) (ls : List LaneId) (s : State) (h : ls.Nodup) :
    ∃ lanes : Vector Lane 15, ls.foldl (fun t l => t.mapLane l (f l)) s = s.withLanes lanes ∧
      ∀ l, (s.withLanes lanes).lane l = if l ∈ ls then f l (s.lane l) else s.lane l := by
  induction ls generalizing s with
  | nil => exact ⟨s.lanes, rfl, fun l => by simp [State.lane]⟩
  | cons a ls ih =>
    obtain ⟨lanes, h1, h2⟩ := ih (s.mapLane a (f a)) (List.nodup_cons.1 h).2
    refine ⟨lanes, ?_, fun l => ?_⟩
    · simp only [List.foldl_cons, h1]
      simp [State.withLanes, State.setLane]
    · have h3 := h2 l
      simp only [State.withLanes_lane] at h3 ⊢
      rw [h3]
      have ha : a ∉ ls := (List.nodup_cons.1 h).1
      by_cases hla : l = a
      · subst hla
        simp [ha]
      · simp [hla]

/-- Every RUNNING lane retires FAULT, in lane number order (R123). -/
theorem State.faultRunning_eq (s : State) : ∃ lanes : Vector Lane 15,
    s.faultRunning = (s.withLanes lanes).withRetireList (s.retireList ++ s.lanesIn .running) ∧
    ∀ l, (s.withLanes lanes).lane l = if (s.lane l).state = .running then
      { s.lane l with state := .retiring, kind := some .fault, outcome := some .faulted } else s.lane l := by
  obtain ⟨lanes, h1, h2⟩ := s.foldl_joinRetire .fault .faulted (s.lanesIn .running) (s.lanesIn_nodup _)
  exact ⟨lanes, h1, fun l => by rw [h2 l]; simp only [s.mem_lanesIn]⟩

/-! ## The frame walk (R138 to R140) -/

/-- A residue step stays within ±127 (R8, R10). -/
theorem stepResidue_range (d : Drive) (r : Int) (h : -127 ≤ r ∧ r ≤ 127) :
    -127 ≤ stepResidue d r ∧ stepResidue d r ≤ 127 := by
  cases d <;> simp only [stepResidue, clampInt, Config.residueBound, Drive.sign] <;> omega

/-- A record that no lane claims is left by the frame walk (R8, R139). -/
theorem State.drivenRecord_unclaimed (s : State) (r : PixelRecord) (h : r.lane = none) : s.drivenRecord r = r := by
  simp only [State.drivenRecord, State.driveCode, h, stepResidue]
  rw [← h]

theorem State.drivenRecord_swept (s : State) : s.drivenRecord PixelRecord.swept = PixelRecord.swept :=
  s.drivenRecord_unclaimed _ rfl

/-- The frame walk changes nothing but the pixel records and the lanes' saturated counts. -/
theorem State.drive_eq (s : State) (visits : Pos → Bool) : ∃ lanes : Vector Lane 15,
    s.drive visits = (s.withLanes lanes).withPixels (s.pixels.map fun c =>
      (c.1, if visits (c.1 % Config.maxWidth, c.1 / Config.maxWidth) then s.drivenRecord c.2 else c.2)) ∧
    ∀ l, (s.withLanes lanes).lane l =
      { s.lane l with saturated := min 65535 ((s.lane l).saturated + s.clips visits l) } := by
  obtain ⟨lanes, h1, h2⟩ := s.foldl_mapLane (fun l r =>
    { r with saturated := min Config.saturatedBound (r.saturated + s.clips visits l) }) laneIds laneIds_nodup
  refine ⟨lanes, ?_, fun l => ?_⟩
  · rw [State.drive, h1]
  · rw [h2 l, if_pos (mem_laneIds l)]
    rfl

/-- The record at a position after the frame walk. -/
theorem State.drive_pixel (s : State) (visits : Pos → Bool) (x : Pos) (hx : x.1 < 2048) :
    (s.drive visits).pixel x = if visits x then s.drivenRecord (s.pixel x) else s.pixel x := by
  obtain ⟨lanes, h, -⟩ := s.drive_eq visits
  rw [h]
  simp only [State.pixel, State.withPixels_pixels]
  rw [Store.read_map PixelRecord.swept s.pixels
    (fun a r => if visits (a % Config.maxWidth, a / Config.maxWidth) then s.drivenRecord r else r)]
  · simp only [address_pos hx]
  · simp [s.drivenRecord_swept]

/-- The frame walk keeps the canonical form. -/
theorem Memory.wf_drive (s : State) (visits : Pos → Bool) (hs : StoresSound s) :
    Memory.wf (s.drive visits) = true := by
  obtain ⟨lanes, h, -⟩ := s.drive_eq visits
  obtain ⟨h1, h2⟩ := (Memory.wf_iff s).1 hs.form
  rw [Memory.wf_iff, h]
  refine ⟨h1, Store.wfFrom_map _ _ _ _ (fun c hc => ?_) h2⟩
  have hne : c.2 ≠ PixelRecord.swept := by
    intro hsw
    have : ∀ (m : Store PixelRecord) (b : Option Nat), Store.wfFrom PixelRecord.swept b m = true →
        ∀ c ∈ m, c.2 ≠ PixelRecord.swept := by
      intro m
      induction m with
      | nil => simp
      | cons e m ih =>
        intro b hb c hc
        obtain ⟨k, v⟩ := e
        simp only [Store.wfFrom, Bool.and_eq_true, decide_eq_true_eq] at hb
        rcases List.mem_cons.1 hc with rfl | hm
        · exact hb.1.2
        · exact ih (some k) hb.2 c hm
    exact this _ _ h2 c hc hsw
  split
  · intro hd
    by_cases hl : c.2.lane = none
    · rw [s.drivenRecord_unclaimed _ hl] at hd
      exact hne hd
    · apply hl
      have := congrArg PixelRecord.lane hd
      simpa [State.drivenRecord, PixelRecord.swept] using this
  · exact hne

end Sys2Proof.Machine
end

