-- ==== Sys2Proof/Tests/Slice0.lean ====
section
/-! SUPPORT. Small tests of single steps, with values taken from the manual's tables and worked sequences, and for every
statement that has hypotheses a concrete case that meets them.
-/

namespace Sys2Proof.Tests

open Sys2Proof Sys2Proof.Machine

set_option Elab.async false

/-! ## Small states -/

/-- What holds of the next state. -/
def after (o : Host.Outcome State Fault Refusal) (f : State → Bool) : Bool :=
  match o with
  | .next t => f t
  | _ => false

/-- The part in RUN after its init sweep. -/
def running : State := { State.reset with power := { State.reset.power with state := .run } }

/-- A transaction is under way on a port and its bytes are taken. -/
def opened (p : Port) (s : State) : State := s.setPort p { s.port p with txn := .opened true }

/-- A transaction of each port is under way. -/
def atA : State := opened .a running
def atB : State := opened .b running

/-- One transaction of Port A from select high, in a given state. -/
def sent (s : State) (i : Instr) (f : State → Bool) : Bool := after (exec i (opened .a s)) f

/-- The result that one transaction of Port A leaves. -/
def resultOf (s : State) (i : Instr) : Option Result :=
  match exec i (opened .a s) with
  | .next t => some t.portA.result
  | _ => none

/-! ## Well-formedness, and the frames of R182 -/

theorem test_wellFormed_unknownCommand_known_code : (Instr.unknownCommand .a [0x01]).wellFormed = false := by decide

theorem test_wellFormed_unknownCommand : (Instr.unknownCommand .a [0x08]).wellFormed = true := by decide

theorem test_wellFormed_frameRow_empty : (Instr.frameRow 0).wellFormed = false := by decide

theorem test_table_words : decodeTableWord 16 0x1001 = none ∧ running.withFetchWord 16 0x1001 = running := by
  decide +kernel

theorem test_frame_context : commandOfFrame .a [0x01, 0, 1, 0, 2, 0, 3, 0, 4] =
      .setWindow .a [0, 1, 0, 2, 0, 3, 0, 4] ∧ commandOfFrame .a [0x02, 2] = .setFormat .a [2] ∧
    commandOfFrame .b [0x03, 1, 0] = .setOrientation .b [1, 0] := by decide

theorem test_frame_pixels : commandOfFrame .a [0x04] = .writePixels .a .code ∧
    commandOfFrame .a [0x05] = .writeContinue .a .code ∧ commandOfFrame .a [0x06, 15] = .fillWindow .a [15] ∧
    commandOfFrame .a [0x07] = .readPixels .a .code := by decide

theorem test_frame_requests : commandOfFrame .a [0x10, 7, 0, 0, 0, 0, 0, 0, 9, 0, 9, 0, 1] =
      .submitUpdate .a [7, 0, 0, 0, 0, 0, 0, 9, 0, 9, 0, 1] ∧ commandOfFrame .a [0x11, 7] = .withdraw .a [7] ∧
    commandOfFrame .b [0x18, 0, 0, 0, 0, 0, 0, 1, 0, 1] = .reserveZone .b [0, 0, 0, 0, 0, 0, 1, 0, 1] ∧
    commandOfFrame .b [0x19, 3] = .releaseZone .b [3] := by decide

theorem test_frame_table : commandOfFrame .a [0x20, 0xE7] = .reportTemperature .a [0xE7] ∧
    commandOfFrame .a [0x28] = .tableBegin .a [] ∧ commandOfFrame .a [0x29, 1, 2] = .tableData .a [1, 2] ∧
    commandOfFrame .a [0x2A] = .tableEnd .a [] ∧ commandOfFrame .a [0x2B] = .tableAbort .a [] ∧
    commandOfFrame .a [0x2C] = .getTableInfo .a [] := by decide

theorem test_frame_settings : commandOfFrame .a [0x30, 5, 0xA8, 4, 0x30] = .setGeometry .a [5, 0xA8, 4, 0x30] ∧
    commandOfFrame .a [0x31, 64, 12, 1] = .setLimits .a [64, 12, 1] ∧
    commandOfFrame .a [0x32, 3, 32, 0, 30, 0, 15, 0, 50, 0, 60, 5, 220] =
      .setTimers .a [3, 32, 0, 30, 0, 15, 0, 50, 0, 60, 5, 220] ∧
    commandOfFrame .a [0x33, 2, 24] = .setFrameMark .a [2, 24] := by decide

theorem test_frame_queries : commandOfFrame .a [0x40] = .getEvents .a [] ∧
    commandOfFrame .a [0x41, 0, 0x65] = .setEventEnable .a [0, 0x65] ∧ commandOfFrame .a [0x42] = .getDone .a [] ∧
    commandOfFrame .a [0x43] = .getResult .a [] ∧ commandOfFrame .a [0x44] = .getStatus .a [] ∧
    commandOfFrame .a [0x45] = .getScan .a [] ∧ commandOfFrame .a [0x46, 0, 100, 0, 40] = .getPixel .a [0, 100, 0, 40] ∧
    commandOfFrame .a [0x47] = .getId .a [] := by decide

theorem test_frame_power : commandOfFrame .b [0x50] = .sleep .b [] ∧ commandOfFrame .b [0x5A] = .portReset .b [] ∧
    commandOfFrame .b [0x5B] = .partReset .b [] ∧ commandOfFrame .b [0x5C] = .unknownCommand .b [0x5C] := by decide

/-! ## Power -/

theorem test_powerOnReset : after (exec (.powerOnReset false) atA) (fun t =>
    decide (t.portA.txn = .discarded ∧ t.portB.txn = .closed ∧ t.power.state = .init ∧ t.power.resetN = false)) =
    true := by decide +kernel

theorem test_initSweepEnd : after (exec .initSweepEnd State.reset) (fun t =>
    decide (t.power.state = .run ∧ t.level (0, 0) = 15 ∧ (t.pixel (3, 4)).shown = none)) = true := by decide +kernel

theorem test_resetNRise : after (exec .resetNRise (State.powerOn false false .closed .closed [])) (fun t =>
    t.power.resetN) = true := by decide +kernel

theorem test_selectFall_ready : after (exec (.selectFall .a) running) (fun t =>
    decide (t.portA.txn = .opened true)) = true := by decide +kernel

/-- The first select to fall in SLEEP wakes the part (R166). -/
theorem test_selectFall_wakes : after (exec (.selectFall .b)
      { running with power := { running.power with state := .sleep } }) (fun t =>
    decide (t.power.state = .waking ∧ t.portB.result = .woke ∧ t.portB.flags = 0x400 ∧ t.portA.flags = 0)) = true := by
  decide +kernel

theorem test_wakingEnd : after (exec .wakingEnd { running with power := { running.power with state := .waking } })
    (fun t => decide (t.power.state = .run)) = true := by decide +kernel

theorem test_dozeTimerExpiry : after (exec .dozeTimerExpiry
      { running with power := { running.power with dozeTimer := some 50 } })
    (fun t => decide (t.power.state = .doze ∧ t.scan = running.scan)) = true := by decide +kernel

/-- SLEEP on one port alone does not put the part to sleep; on the second it does (R164, R165). -/
theorem test_sleep : sent running (.sleep .a []) (fun t => decide (t.power.state = .run ∧ t.portA.consent = true)) =
      true ∧
    sent { running with portB := { running.portB with consent := true } } (.sleep .a [])
      (fun t => decide (t.power.state = .sleep)) = true := by decide +kernel

theorem test_discardedTransactionRise : after (exec (.discardedTransactionRise .a)
      (running.setPort .a { running.portA with txn := .discarded, result := .woke })) (fun t =>
    decide (t.portA.txn = .closed ∧ t.portA.result = .woke)) = true := by decide +kernel

/-- The bytes of the waking transaction are clocked out as zero (R166). -/
theorem test_discarded_bytes :
    let s := running.setPort .a { running.portA with txn := .discarded, response := [7] }
    after (exec (.readbackByte .a) s) (fun t => decide (t.portA.dataOut = [0] ∧ t.portA.txn = .discarded)) = true ∧
    after (exec (.getResult .a [0]) s) (fun t => decide (t.portA.dataOut = [0, 0] ∧ t.portA.response = [7] ∧
      t.portA.txn = .closed)) = true := by decide +kernel

/-! ## The link -/

/-- Bytes clocked while READY is low carry zero out, and the response stays for a transaction with a byte taken (R61,
R171). -/
theorem test_untaken_bytes :
    let s := running.setPort .a { running.portA with txn := .opened false, response := [7] }
    let low := s.withPower { s.power with state := .waking }
    after (exec (.writePixels .a .code) low) (fun t => decide (t.portA.dataOut = [0] ∧ t.portA.txn = .opened false)) =
      true ∧
    after (exec (.getResult .a [0]) low) (fun t => decide (t.portA.dataOut = [0, 0] ∧ t.portA.response = [7] ∧
      t.portA.result = .badFrame)) = true := by decide +kernel

theorem test_unknownCommand : resultOf running (.unknownCommand .a [0x5C, 1]) = some .badFrame := by decide +kernel

/-- A SET_WINDOW of seven bytes is BAD_FRAME (R169). -/
theorem test_badFrame : sent running (.setWindow .a [0, 0, 0, 0, 0, 0, 1]) (fun t =>
    decide (t.portA.result = .badFrame ∧ t.portA.flags = 0x004)) = true := by decide +kernel

/-! ## Contexts and pixels -/

/-- Bounds beyond the area are clamped to 1447 and 1071 (R57). -/
theorem test_setWindow : sent running (.setWindow .a (coordinates 10 20 1448 1072)) (fun t =>
    decide (t.portA.ctx.window = ⟨10, 20, 1447, 1071⟩ ∧ t.portA.ctx.cursor = some (10, 20) ∧
      t.portA.result = .clamped)) = true := by decide +kernel

theorem test_setFormat : sent running (.setFormat .a [0]) (fun t => decide (t.portA.ctx.format = .p1)) = true ∧
    resultOf running (.setFormat .a [3]) = some .badParam := by decide +kernel

/-- ROT90 exchanges the sides of the port area (R55, R58). -/
theorem test_setOrientation : sent running (.setOrientation .a [1, 0]) (fun t =>
    decide (t.portA.ctx.window = ⟨0, 0, 1071, 1447⟩)) = true := by decide +kernel

/-- The corners of the port area under ROT90 and ROT270 (R56). -/
theorem test_toPanel : toPanel ⟨.rot90, false, ⟨0, 0, 0, 0⟩, none, .p4⟩ 1448 1072 (100, 200) = (1247, 100) ∧
    toPanel ⟨.rot270, true, ⟨0, 0, 0, 0⟩, none, .p4⟩ 1448 1072 (0, 5) = (5, 0) := by decide

theorem test_writePixels_code : after (exec (.writePixels .a .code) atA) (fun t =>
    decide (t.portA.txn = .writing false false ∧ t.portA.ctx.cursor = some (0, 0))) = true := by decide +kernel

theorem test_writePixels_rise : after (exec (.writePixels .a .rise)
      (running.setPort .a { running.portA with txn := .writing true true })) (fun t =>
    decide (t.portA.result = .lostData ∧ t.portA.txn = .closed)) = true := by decide +kernel

theorem test_writeContinue_keeps_cursor : after (exec (.writeContinue .a .code)
      (opened .a (running.setPort .a { running.portA with
        ctx := { running.portA.ctx with cursor := some (7, 8) } }))) (fun t =>
    decide (t.portA.ctx.cursor = some (7, 8))) = true := by decide +kernel

/-- A port in a pixel write in a window of two pixels at (4, 5). -/
def writing : State := running.setPort .a { running.portA with
  txn := .writing false false, ctx := ⟨.rot0, false, ⟨4, 5, 5, 5⟩, some (4, 5), .p4⟩ }

theorem test_pixelDataByte : after (exec (.pixelDataByte .a 0xA3) writing) (fun t =>
    decide (t.portA.stream = [.pixel (4, 5) 10, .pixel (5, 5) 3] ∧ t.portA.ctx.cursor = none)) = true := by
  decide +kernel

/-- Pixels past the window's end are ignored with OVERRUN (R62). -/
theorem test_pixelDataByte_overrun : after (exec (.pixelDataByte .a 0xA3)
      (writing.setPort .a { writing.portA with ctx := { writing.portA.ctx with cursor := some (5, 5) } })) (fun t =>
    decide (t.portA.stream = [.pixel (5, 5) 10] ∧ t.portA.flags = 0x008)) = true := by decide +kernel

/-- A byte discarded because the stream has no place for its pixels (R61, R64). -/
theorem test_pixelByteDiscarded : after (exec (.pixelByteDiscarded .a)
      (writing.setPort .a { writing.portA with stream := List.replicate 63 (.pixel (0, 0) 0) })) (fun t =>
    decide (t.portA.txn = .writing true false ∧ t.portA.flags = 0x010 ∧ t.portA.stream.length = 63)) = true := by
  decide +kernel

theorem test_fillWindow : sent running (.fillWindow .a [9]) (fun t =>
    decide (t.portA.stream = [.fill ⟨0, 0, 1447, 1071⟩ 9 (0, 0)])) = true ∧
    resultOf running (.fillWindow .a [16]) = some .badParam := by decide +kernel

theorem test_readPixels_code : after (exec (.readPixels .a .code) atA) (fun t =>
    decide (t.portA.txn = .reading ⟨some (0, 0), [], false, false⟩)) = true := by decide +kernel

/-- A readback of which two levels are granted. -/
def reading (pos : Option Pos) (granted : List Level) (dummy : Bool) : State :=
  running.setPort .a { running.portA with txn := .reading ⟨pos, granted, dummy, false⟩ }

theorem test_readPixels_rise : after (exec (.readPixels .a .rise) (reading none [] true)) (fun t =>
    decide (t.portA.result = .ok ∧ t.portA.txn = .closed)) = true := by decide +kernel

theorem test_readbackLevelRead : after (exec (.readbackLevelRead .a) (reading (some (0, 0)) [] false)) (fun t =>
    decide (t.portA.txn = .reading ⟨some (1, 0), [15], false, false⟩ ∧ t.lastGrant = .portA)) = true := by
  decide +kernel

/-- The first level of a byte stands in its four most significant bits; an odd last one leaves the others 0 (R66). -/
theorem test_readbackByte : after (exec (.readbackByte .a) (reading none [15, 3] true)) (fun t =>
      decide (t.portA.dataOut = [0xF3])) = true ∧
    after (exec (.readbackByte .a) (reading none [9] true)) (fun t => decide (t.portA.dataOut = [0x90])) = true := by
  decide +kernel

/-- A port whose stream holds the entries given. -/
def streaming (l : List Entry) : State := running.setPort .a { running.portA with stream := l }

theorem test_drainPixelEntry : after (exec (.drainPixelEntry .a) (streaming [.pixel (7, 9) 3])) (fun t =>
    decide (t.level (7, 9) = 3 ∧ t.level (9, 7) = 15 ∧ t.portA.stream = [])) = true := by decide +kernel

theorem test_drainFillPixel : after (exec (.drainFillPixel .a) (streaming [.fill ⟨4, 5, 6, 7⟩ 2 (6, 5)])) (fun t =>
    decide (t.level (6, 5) = 2 ∧ t.portA.stream = [.fill ⟨4, 5, 6, 7⟩ 2 (4, 6)])) = true := by decide +kernel

theorem test_unpackByte : unpackByte .p1 0x81 = [15, 0, 0, 0, 0, 0, 0, 15] ∧ unpackByte .p2 0x1B = [0, 5, 10, 15] := by
  decide +kernel

/-! ## The Waveform Table -/

/-- A sixteen-level mode that is not clearing, with cost 1 and no promote target (07, a partial withdrawal). -/
def plainMode : ModeRecord := ⟨.sixteen, false, false, false, false, 1, none, 256⟩

/-- A table of one band and that mode; its recipes are those of the worked sequences of 01 and 07. -/
def table : Table :=
  { header := ⟨1, 1, 1, 0, 4, 575⟩, bands := [⟨0, 300⟩], modes := [plainMode]
    map := (List.range 272).map fun k => if 256 ≤ k ∨ k = 172 then 1 else if k = 45 then 2 else if k = 242 then 3 else 0
    pool := [Recipe.ofSegments [], Recipe.ofSegments [(.neg, 3), (.pos, 5)],
      Recipe.ofSegments [(.neg, 6), (.pos, 12), (.hold, 6)],
      Recipe.ofSegments [(.pos, 4), (.neg, 8), (.hold, 2)]] }

/-- The part in RUN with that table VALID. -/
def loaded : State := { running with table := ⟨.valid, table.image, 575, some table⟩ }

theorem test_recipe : Recipe.ofSegments [(.pos, 4), (.neg, 8), (.hold, 2)] =
      ⟨[(.pos, 4), (.neg, 8), (.hold, 2)], 14, -4⟩ ∧
    [0, 3, 4, 11, 12, 13, 14].map (segmentAt [(.pos, 4), (.neg, 8), (.hold, 2)]) =
      [.pos, .pos, .neg, .neg, .hold, .hold, .hold] := by decide +kernel

/-- The worked count of R20: 5,100 entries; mode 1, band 3, from 4 to 8 are its 1,777th and 1,778th. -/
theorem test_mapIndex :
    let m (l : LevelSet) (c : Bool) : ModeRecord := ⟨l, false, false, false, c, 0, none, 256⟩
    let ms := [m .two false, m .sixteen true, m .sixteen false]
    modesEntries 6 ms = 5100 ∧ mapIndex 6 ms 1 (m .sixteen true) 3 (some 4) 8 .p = 204 + 1776 ∧
      mapIndex 6 ms 1 (m .sixteen true) 3 (some 4) 8 .n = 204 + 1777 := by decide +kernel

theorem test_validateImage : validateImage table.image = .ok table := by decide +kernel

theorem test_validateImage_refused : validateImage (2 :: table.image.tail) = .error .badHeader ∧
    validateImage (table.image ++ [0]) = .error .sizeMismatch ∧
    validateImage (table.image.set 11 5) = .error .badBands ∧
    validateImage (table.image.set 20 4) = .error .badMap ∧
    validateImage (table.image.set 532 0) = .error .unknownRowEmpty ∧
    validateImage (table.image.set 563 9) = .error .badRecipe := by decide +kernel

/-- A load owned by Port A, with the bytes and the count given. -/
def loading (validating : Bool) (bytes : List Byte) (n : Nat) : State :=
  { running with table := ⟨.loading .a validating, bytes, n, none⟩ }

theorem test_tableBegin : sent loaded (.tableBegin .a []) (fun t =>
    decide (t.table.phase = .loading .a false ∧ t.portA.flags = 0x200 ∧ t.portB.flags = 0x200)) = true := by
  decide +kernel

theorem test_tableBegin_inUse : resultOf (loaded.setLane 3 { Lane.rest with state := .armed }) (.tableBegin .a []) =
    some .inUse := by decide +kernel

theorem test_tableData : sent (loading false [1] 65534) (.tableData .a [2, 3]) (fun t =>
      decide (t.table.memory = [1, 2, 3] ∧ t.table.received = 65536)) = true ∧
    sent (loading false [1] 65535) (.tableData .a [2, 3]) (fun t =>
      decide (t.table.phase = .invalid .tooLarge ∧ t.portA.result = .tooLarge)) = true := by decide +kernel

theorem test_tableEnd : sent (loading false [1] 1) (.tableEnd .a []) (fun t =>
    decide (t.table.phase = .loading .a true) && !t.ready .a && t.ready .b) = true := by decide +kernel

/-- An abort by the other port gives the owner ABORTED only while it validates (R28). -/
theorem test_tableAbort : after (exec (.tableAbort .b []) (opened .b (loading true [1] 1))) (fun t =>
      decide (t.table.phase = .invalid .aborted ∧ t.portA.result = .aborted ∧ t.portB.result = .ok)) = true ∧
    after (exec (.tableAbort .b []) (opened .b (loading false [1] 1))) (fun t =>
      decide (t.portA.result = .ok)) = true := by decide +kernel

theorem test_validationEnd : after (exec .validationEnd (loading true table.image 575)) (fun t =>
      decide (t.table.phase = .valid ∧ t.table.table = some table ∧ t.portB.flags = 0x200)) = true ∧
    after (exec .validationEnd (loading true [] 0)) (fun t =>
      decide (t.table.phase = .invalid .badHeader ∧ t.portA.flags = 0x004)) = true := by decide +kernel

/-! ## Temperature: the worked sequence of 03 -/

/-- The six bands of the worked sequence. -/
def bandsTable : Table := { table with bands := [⟨-10, 300⟩, ⟨0, 300⟩, ⟨10, 300⟩, ⟨18, 250⟩, ⟨26, 200⟩, ⟨34, 150⟩] }

theorem test_bandWithHysteresis : bandWithHysteresis bandsTable 1 3 18 = 3 ∧ bandWithHysteresis bandsTable 1 3 17 = 3 ∧
    bandWithHysteresis bandsTable 1 3 16 = 2 ∧ bandWithHysteresis bandsTable 1 2 18 = 2 ∧
    bandWithHysteresis bandsTable 1 2 19 = 3 ∧ bandWithHysteresis bandsTable 1 3 85 = 5 ∧
    bandWithHysteresis bandsTable 1 5 (-40) = 0 := by decide +kernel

/-- The part with the six bands VALID and a temperature held. -/
def warm (f : Freshness) (x : Int) (b : Nat) : State :=
  { loaded with table := ⟨.valid, [], 0, some bandsTable⟩, temp := ⟨f, some x, some b, none, 1, 60⟩ }

theorem test_reportTemperature : sent (warm .fresh 19 3) (.reportTemperature .a [120]) (fun t =>
      decide (t.temp.effective = some 85 ∧ t.temp.band = some 5 ∧ t.portA.result = .clamped)) = true ∧
    sent (warm .stale (-40) 0) (.reportTemperature .a [9]) (fun t =>
      decide (t.temp.freshness = .fresh ∧ t.temp.band = some 1 ∧ t.temp.staleTimer = some 60)) = true := by
  decide +kernel

theorem test_staleTimerExpiry : after (exec .staleTimerExpiry
      { loaded with temp := ⟨.fresh, some (-40), some 0, some 60, 1, 60⟩ }) (fun t =>
    decide (t.temp.freshness = .stale ∧ t.temp.band = some 0 ∧ t.portA.flags = 0x080 ∧ t.portB.flags = 0x080)) =
    true := by decide +kernel

/-! ## Requests, the queue and zones: the worked sequences of 05 -/

/-- The queue of the page turn beside a pen, after the sweep, with zone 0 held by Port B. -/
def pageTurn : State :=
  { loaded with
    queue := [⟨.a, 20, 2, ⟨0, 0, 723, 1071⟩, .hold, false⟩, ⟨.b, 5, 0, ⟨650, 400, 669, 419⟩, .skip, true⟩,
      ⟨.a, 21, 2, ⟨1000, 600, 1447, 1071⟩, .hold, false⟩, ⟨.b, 6, 0, ⟨1200, 50, 1219, 69⟩, .skip, false⟩,
      ⟨.a, 22, 1, ⟨724, 0, 999, 299⟩, .hold, true⟩]
    zones := #v[some ⟨.b, ⟨600, 300, 899, 499⟩, 1500⟩, none, none, none] }

theorem test_reconsider_pageTurn : pageTurn.reconsider.queue.map Request.tag = [20, 5] ∧
    [0, 1, 2].map (fun l => (pageTurn.reconsider.lane l).tag) = [22, 21, 6] ∧
    pageTurn.reconsider.surveyList = [0, 1, 2] := by decide +kernel

/-- WITHDRAW of tag 20 from the queue lets request 41 take lane 4. -/
theorem test_withdraw_queue : sent pageTurn.reconsider (.withdraw .a [20]) (fun t =>
    decide (t.queue = [] ∧ (t.lane 3).tag = 5 ∧ t.portA.done.map DoneRecord.tag = [20] ∧
      t.portA.result = .ok)) = true := by decide +kernel

theorem test_releaseZone : after (exec (.releaseZone .b [0]) (opened .b pageTurn.reconsider)) (fun t =>
    decide (t.queue = [] ∧ (t.lane 3).tag = 20 ∧ (t.lane 4).tag = 5 ∧ t.zone 0 = none)) = true := by decide +kernel

theorem test_zoneLapse : after (exec (.zoneLapse 0) pageTurn.reconsider) (fun t =>
    decide (t.zone 0 = none ∧ t.portB.flags = 0x100 ∧ t.portA.flags = 0)) = true := by decide +kernel

theorem test_reserveZone : sent pageTurn (.reserveZone .a (0 :: coordinates 0 0 9 9)) (fun t =>
      decide (t.portA.result = .notOwner)) = true ∧
    sent pageTurn (.reserveZone .a (1 :: coordinates 0 0 9 2000)) (fun t =>
      decide (t.zone 1 = some ⟨.a, ⟨0, 0, 9, 1071⟩, 1500⟩ ∧ t.portA.result = .clamped)) = true := by decide +kernel

/-- Port A holds 8 places and Port B 16, 3 of them in its stream behind a fill. -/
def crowded : State :=
  let q (p : Port) (k : Nat) : Request := ⟨p, k, 0, ⟨0, 0, 9, 9⟩, .hold, false⟩
  { running with
    queue := (List.range 8).map (fun k => q .a (k + 1)) ++ (List.range 13).map fun k => q .b (k + 1)
    portB := { running.portB with stream := .fill ⟨0, 0, 9, 9⟩ 0 (0, 0) :: [.submit (q .b 20), .submit (q .b 21),
      .submit (q .b 22)] } }

theorem test_submitUpdate_queueFull : resultOf crowded (.submitUpdate .a ([30, 2] ++ coordinates 0 0 9 9 ++ [0, 0])) =
      some .queueFull ∧
    resultOf { crowded with queue := crowded.queue.dropLast }
      (.submitUpdate .a ([30, 2] ++ coordinates 0 0 9 9 ++ [0, 0])) = some .ok := by decide +kernel

theorem test_submitUpdate : sent running (.submitUpdate .a ([31, 7] ++ coordinates 1 2 3 2000 ++ [1, 1])) (fun t =>
      decide (t.portA.stream = [.submit ⟨.a, 31, 7, ⟨1, 2, 3, 1071⟩, .skip, true⟩] ∧ t.portA.result = .clamped)) = true ∧
    resultOf running (.submitUpdate .a ([31, 8] ++ coordinates 1 2 3 4 ++ [1, 1])) = some .badParam := by
  decide +kernel

/-- A request for a mode that the VALID table does not define ends BAD_MODE (R75). -/
theorem test_drainSubmitEntry : after (exec (.drainSubmitEntry .b)
      (loaded.setPort .b { loaded.portB with stream := [.submit ⟨.b, 8, 5, ⟨0, 0, 9, 9⟩, .skip, false⟩] })) (fun t =>
    decide (t.queue = [] ∧ t.portB.done.map DoneRecord.outcome = [.badMode] ∧ t.portB.flags = 0x001)) = true ∧
    after (exec (.drainSubmitEntry .b)
      (running.setPort .b { running.portB with stream := [.submit ⟨.b, 8, 5, ⟨0, 0, 9, 9⟩, .skip, false⟩] })) (fun t =>
    decide (t.queue.map Request.tag = [8])) = true := by decide +kernel

theorem test_withdraw_unknownTag : resultOf running (.withdraw .a [9]) = some .unknownTag := by decide +kernel

/-! ## Settings, geometry and queries -/

theorem test_setGeometry : sent running (.setGeometry .a [0, 64, 6, 64]) (fun t =>
      decide (t.width = 64 ∧ t.height = 1600 ∧ t.power.geometrySweep = true) && !t.ready .a) = true ∧
    resultOf running (.setGeometry .a [0, 63, 6, 64]) = some .badParam := by decide +kernel

/-- A command held during the sweep takes effect at its end, before the refusal of a later transaction of its port (R61,
R168). -/
theorem test_geometrySweepEnd : after (exec .geometrySweepEnd
      { running with
        width := 64, height := 80, power := { running.power with geometrySweep := true }
        portB := { running.portB with held := [.command (.sleep .b []), .untaken] } }) (fun t =>
    decide (t.power.geometrySweep = false ∧ t.portA.ctx.window = ⟨0, 0, 63, 79⟩ ∧ t.portB.result = .badFrame ∧
      t.portB.consent = false ∧ t.portB.held = [])) = true := by decide +kernel

theorem test_setLimits : sent running (.setLimits .a [127, 16, 5]) (fun t =>
    decide (t.residueLimit = 127 ∧ t.wearLimit = 15 ∧ t.temp.hysteresis = 5 ∧ t.portA.result = .clamped)) = true := by
  decide +kernel

theorem test_setTimers : sent running (.setTimers .a [0, 0, 0, 0, 1, 0, 0, 50, 2, 88, 0, 99]) (fun t =>
    decide (t.supply.parkDuration = 0 ∧ t.supply.riseDuration = 1 ∧ t.supply.fallDuration = 255 ∧
      t.power.dozeDelay = 50 ∧ t.temp.staleDuration = 600 ∧ t.zoneDuration = 100 ∧
      t.portA.result = .clamped)) = true := by decide +kernel

theorem test_setFrameMark : sent running (.setFrameMark .a [4, 48]) (fun t =>
      decide (t.scan.markRow = 1071 ∧ t.portA.result = .clamped)) = true ∧
    sent { running with scan := { running.scan with scanning := true, markRow := 536 } } (.setFrameMark .a [0, 0])
      (fun t => decide (t.scan.markRow = 536 ∧ t.scan.pendingMark = some 0)) = true := by decide +kernel

/-- The first row of 11's worked sequence: DONE, REFUSED, SUPPLY_FAULT and HALTED enabled. -/
theorem test_setEventEnable : sent running (.setEventEnable .a [0, 0x65]) (fun t =>
      decide (t.portA.enables = 0x065 ∧ t.portA.result = .ok) && !t.attnLow .a) = true ∧
    resultOf running (.setEventEnable .a [0x10, 0]) = some .badParam := by decide +kernel

/-- GET_EVENTS after a refusal: the old result, the flags, no record; the flags are cleared (11, worked sequence). -/
theorem test_getEvents : sent (running.setPort .a { running.portA with result := .duplicateTag, flags := 0x004 })
      (.getEvents .a []) (fun t =>
    decide (t.portA.response = [0x12, 0, 4, 0] ∧ t.portA.flags = 0 ∧ t.portA.result = .ok)) = true := by decide +kernel

/-- The done record of the worked partial withdrawal (07), as GET_DONE answers it. -/
theorem test_getDone : sent (running.setPort .a { running.portA with
      done := [⟨44, .withdrawn, 3, 3, false, false, some ⟨some 2, 10, 4, 0, 0, 0, 0⟩⟩] }) (.getDone .a []) (fun t =>
    decide (t.portA.response = [0, 44, 3, 3, 3, 0, 2, 0, 10, 0, 0, 4] ++ List.replicate 12 0 ∧ t.portA.done = [])) =
    true := by decide +kernel

/-- A response goes out on the next transaction, as far as that is clocked (11, worked sequence). -/
theorem test_getResult : sent (running.setPort .a { running.portA with response := [0, 7, 1] }) (.getResult .a [0])
      (fun t => decide (t.portA.dataOut = [0, 7] ∧ t.portA.response = [0])) = true := by decide +kernel

theorem test_getStatus : sent pageTurn.reconsider (.getStatus .a []) (fun t =>
    decide (t.portA.response.length = 66 ∧ t.portA.response.take 7 = [0, 1, 0, 22, 1, 0, 21])) = true := by
  decide +kernel

/-- The GET_SCAN of 08's worked sequence: SCANNING, row 800, counter 1, band 3, frame-mark row 536. -/
theorem test_getScan : sent { running with scan := ⟨true, some 3, some 250, some 800, 801, 0, 1, 536, none, 2⟩ }
      (.getScan .a []) (fun t => decide (t.portA.response = [0, 1, 3, 32, 0, 1, 3, 2, 24])) = true := by decide +kernel

/-- The record of 01's worked sequence after frame 10, read by GET_PIXEL. -/
theorem test_getPixel : sent (running.setPixel (100, 40) ⟨some 15, some 2, 2, .p, 121, 5⟩)
      (.getPixel .a [0, 100, 0, 40]) (fun t => decide (t.portA.response = [0, 15, 3, 2, 1, 121, 5])) = true ∧
    resultOf running (.getPixel .a [5, 168, 0, 0]) = some .badParam := by decide +kernel

theorem test_getId : sent running (.getId .a []) (fun t => decide (t.portA.response = [0, 9, 136, 1, 1])) = true := by
  decide +kernel

theorem test_getTableInfo : sent (loading false [] 300) (.getTableInfo .a []) (fun t =>
    decide (t.portA.response = [0, 1, 0, 0, 0, 1, 44, 0xFF] ++ List.replicate 10 0xFF)) = true := by decide +kernel

/-! ## A lane's life -/

/-- A lane record of Port A's HOLD request over a row of four pixels (07). -/
def laneOf (st : LaneState) (count index : Nat) : Lane :=
  { Lane.rest with
    state := st, tag := 44, rect := ⟨300, 500, 303, 500⟩, band := some 0, frameCount := count, frameIndex := index
    claimed := 4 }

/-- The survey of 06's worked sequence: limits 64 and 12, a mode of cost 2, ratio 96 and a promote target. -/
def surveying (pos : Option Pos) : Survey :=
  ⟨6, pos, 64, 12, { plainMode with cost := 2, promote := some 1, ratio := 96 }, some plainMode, none⟩

theorem test_surveyStart : after (exec .surveyStart
      { warm .stale 9 1 with surveyList := [6], lanes := loaded.lanes.set 6 (laneOf .pending 0 0) }) (fun t =>
    decide (t.survey = some ⟨6, some (300, 500), 64, 12, plainMode, none, none⟩ ∧ (t.lane 6).band = some 0 ∧
      (t.lane 6).stale = true ∧ (t.lane 6).state = .survey ∧ t.surveyList = [])) = true := by decide +kernel

/-- Pixels 2, 3, 5 and 6 of 06's worked sequence against the limits. -/
theorem test_wornOut : wornOut (surveying none) (-20) ⟨some 15, none, 0, .n, -50, 4⟩ = true ∧
    wornOut (surveying none) 20 ⟨some 0, none, 0, .n, 30, 11⟩ = true ∧
    wornOut (surveying none) (-6) ⟨some 8, none, 0, .n, 5, 10⟩ = false ∧
    wornOut (surveying none) 6 ⟨some 4, none, 0, .n, 60, 1⟩ = true := by decide +kernel

/-- The claim of 01's worked sequence: residue +125 latches variant P, 15 to 2, a recipe of 14 frames. -/
def claiming : State :=
  ((({ loaded with survey := some ⟨6, some (300, 500), 127, 12, plainMode, none, none⟩ }).setLane 6
    { laneOf .survey 0 0 with claimed := 0 }).setLevel (300, 500) 2).setPixel (300, 500) ⟨some 15, none, 0, .n, 125, 5⟩

theorem test_surveyVisit : after (exec (.surveyVisit .whole) claiming) (fun t =>
    decide (t.pixel (300, 500) = ⟨some 15, some 6, 2, .p, 125, 5⟩ ∧ (t.lane 6).claimed = 1 ∧
      (t.lane 6).changing = 1 ∧ (t.lane 6).worn = 0 ∧ (t.lane 6).longestRequested = 14)) = true := by decide +kernel

/-- An UNKNOWN pixel is skipped in a mode that neither accepts unknown nor has a promote target (R102). -/
theorem test_surveyVisit_unknown : after (exec (.surveyVisit .whole)
      (claiming.setPixel (300, 500) ⟨none, none, 0, .n, 0, 0⟩)) (fun t =>
    decide ((t.lane 6).unknownSkipped = 1 ∧ (t.lane 6).claimed = 0)) = true := by decide +kernel

/-- 768 ≥ 768: the lane of 06's worked sequence is promoted and armed with 38 frames; the rails are asked for. -/
theorem test_surveyEnd : after (exec .surveyEnd (({ loaded with survey := some (surveying none) }).setLane 6
      { laneOf .survey 0 0 with claimed := 8, changing := 8, worn := 3, longestRequested := 24,
                                longestPromoted := 38 })) (fun t =>
    decide ((t.lane 6).state = .armed ∧ (t.lane 6).finalMode = 1 ∧ (t.lane 6).promoted = true ∧
      (t.lane 6).frameCount = 38 ∧ t.supply.state = .rising ∧ t.supply.riseTimer = some 30)) = true := by
  decide +kernel

theorem test_surveyEnd_empty : after (exec .surveyEnd (({ loaded with survey := some (surveying none) }).setLane 6
      { laneOf .survey 0 0 with claimed := 0 })) (fun t =>
    decide ((t.lane 6).state = .free ∧ t.portA.done.map DoneRecord.outcome = [.empty])) = true := by decide +kernel

/-- The supply ON and parked with lanes 5 (band 2) and 6 (band 3) waiting, in that order (07, a lane waiting for its
band). -/
def waiting : State :=
  ((({ warm .fresh 21 3 with
      armingList := [4, 5], supply := { running.supply with state := .on, parkTimer := some 800 }
      scan := { running.scan with counter := 417 } }).setLane 4 { laneOf .armed 10 0 with band := some 2 }).setLane 5
    { laneOf .armed 10 0 with band := some 3 })

theorem test_scanStart : after (exec .scanStart waiting) (fun t =>
    decide ((t.lane 4).state = .running ∧ (t.lane 5).state = .armed ∧ t.armingList = [5] ∧ t.scan.band = some 2 ∧
      t.scan.counter = 0 ∧ t.supply.parkTimer = none)) = true := by decide +kernel

/-- Lane 3 of 01's worked sequence at frame index 3, its pixel at residue +127. -/
def driving (index : Nat) (residue : Int) (abort : Bool) : State :=
  ((({ loaded with
      width := 64, height := 64
      scan := ⟨true, some 0, some 300, some 9, 9, 0, 3, 20, none, 0⟩
      supply := { running.supply with state := .on } }).setLane 2 { laneOf .running 14 index with
        rect := ⟨0, 9, 0, 9⟩, claimed := 1, abort := abort }).setPixel (0, 9) ⟨some 15, some 2, 2, .p, residue, 5⟩)

/-- Frame 4's POS is clipped and counted; frame 10's NEG is applied. -/
theorem test_frameRow : after (exec (.frameRow 64) (driving 3 127 false)) (fun t =>
      decide ((t.pixel (0, 9)).residue = 127 ∧ (t.lane 2).saturated = 1 ∧ t.scan.walkRow = 10)) = true ∧
    after (exec (.frameRow 64) (driving 9 122 false)) (fun t =>
      decide ((t.pixel (0, 9)).residue = 121 ∧ (t.lane 2).saturated = 0)) = true := by decide +kernel

/-- The boundary that ends frame 10 with the abort requested: PARTIAL, WITHDRAWN, 10 frames completed. -/
theorem test_frameBoundary : after (exec .frameBoundary (driving 9 122 true)) (fun t =>
    decide ((t.lane 2).state = .retiring ∧ (t.lane 2).kind = some .partialDrive ∧ (t.lane 2).frameIndex = 10 ∧
      (t.pixel (0, 9)).residue = 121 ∧ t.scan.scanning = false ∧ t.scan.counter = 4 ∧
      t.supply.parkTimer = some 800)) = true := by decide +kernel

/-- No row is pending once the scan is IDLE (R147), and the one that was is in force. -/
theorem test_frameBoundary_normal :
    let s := driving 13 119 false
    after (exec .frameBoundary (s.withScan { s.scan with pendingMark := some 7 })) (fun t =>
      decide ((t.lane 2).kind = some .normal ∧ (t.lane 2).outcome = some .completed ∧ t.scan.markRow = 7 ∧
        t.scan.pendingMark = none)) = true := by decide +kernel

/-- Lane 7 of 07's worked sequence in its retire walk, with F = 10. -/
def retiring (pos : Option Pos) : State :=
  ((({ loaded with retire := some ⟨6, pos, false, 1⟩, retireList := [6] }).setLane 6
    { laneOf .retiring 24 10 with kind := some .partialDrive, outcome := some .withdrawn }).setPixel (301, 500)
      ⟨some 10, some 6, 12, .n, 1, 15⟩).setPixel (302, 500) ⟨some 2, some 6, 13, .n, -2, 5⟩

/-- Pixel B reaches its target with wear held at 15, pixel C becomes UNKNOWN. -/
theorem test_retireVisit : after (exec .retireVisit (retiring (some (301, 500)))) (fun t =>
      decide (t.pixel (301, 500) = ⟨some 12, none, 0, .n, 1, 15⟩)) = true ∧
    after (exec .retireVisit (retiring (some (302, 500)))) (fun t =>
      decide (t.pixel (302, 500) = ⟨none, none, 0, .n, -2, 5⟩)) = true := by decide +kernel

theorem test_retireWalkEnd : after (exec .retireWalkEnd (retiring none)) (fun t =>
    decide (t.lane 6 = Lane.rest ∧ t.retire = none ∧ t.retireList = [] ∧
      t.portA.done = [⟨44, .withdrawn, 0, 0, false, false, some ⟨some 0, 10, 4, 0, 0, 0, 0⟩⟩])) = true := by
  decide +kernel

/-! ## The panel supply: the worked sequence of 09 -/

/-- The supply in a state, with the recovery mark, and lane 5 ARMED. -/
def supplied (st : SupplyState) (mark : Bool) : State :=
  (({ loaded with
      armingList := [4]
      supply := { running.supply with
        state := st, recovery := mark, riseTimer := if st = SupplyState.rising then some 30 else none
        fallTimer := if st = SupplyState.tripped then some 15 else none } }).setLane 4 (laneOf .armed 20 0))

theorem test_railGoodAsserted : after (exec .railGoodAsserted (supplied .rising false)) (fun t =>
    decide (t.supply.state = .on ∧ t.supply.parkTimer = some 800 ∧ t.supply.riseTimer = none)) = true := by
  decide +kernel

/-- The first loss trips, the second before a whole frame halts. -/
theorem test_railLost : after (exec .railLost (driving 10 121 false)) (fun t =>
      decide (t.supply.state = .tripped ∧ t.supply.recovery = true ∧ (t.lane 2).kind = some .fault ∧
        (t.lane 2).frameIndex = 10 ∧ t.portB.flags = 0x020)) = true ∧
    after (exec .railLost { driving 0 121 false with
        supply := { running.supply with state := .on, recovery := true } }) (fun t =>
      decide (t.supply.state = .halted ∧ t.portA.flags = 0x060)) = true := by decide +kernel

/-- RAIL_GOOD never returns: HALTED, and the ARMED lane is released FAULTED. -/
theorem test_riseTimeout : after (exec .riseTimeout (supplied .rising true)) (fun t =>
    decide (t.supply.state = .halted ∧ t.supply.cause = .riseTimeout ∧ (t.lane 4).kind = some .release ∧
      (t.lane 4).outcome = some .faulted ∧ t.armingList = [])) = true := by decide +kernel

theorem test_parkTimerExpiry : after (exec .parkTimerExpiry
      { running with supply := { running.supply with state := .on, parkTimer := some 800 } }) (fun t =>
    decide (t.supply.state = .falling ∧ t.supply.fallTimer = some 15 ∧ t.railEn = false)) = true := by decide +kernel

/-- Lane 5 ARMED: the sequencer goes through OFF to RISING. -/
theorem test_fallTimerExpiry : after (exec .fallTimerExpiry (supplied .tripped true)) (fun t =>
    decide (t.supply.state = .rising ∧ t.supply.riseTimer = some 30 ∧ t.supply.fallTimer = none)) = true := by
  decide +kernel

/-! ## The reset commands -/

theorem test_portReset : sent (pageTurn.reconsider) (.portReset .a []) (fun t =>
    decide (t.queue = [] ∧ (t.lane 0).tag = 5 ∧ (t.lane 2).tag = 6 ∧ (t.lane 1).state = .free ∧
      t.portA.done = [] ∧ t.zone 0 ≠ none)) = true := by decide +kernel

/-- PART_RESET from HALTED after the fall timer: OFF, the mark clear, cause NONE (09, worked sequence). -/
theorem test_partReset : sent { pageTurn with
      supply := { running.supply with state := .halted, recovery := true, cause := .railLost } } (.partReset .a [])
    (fun t => decide (t.supply.state = .off ∧ t.supply.recovery = false ∧ t.supply.cause = .none ∧ t.queue = [] ∧
      t.zone 0 = none ∧ t.portB.flags = 0x800 ∧ t.table.phase = .valid)) = true := by decide +kernel

/-! ## Witnesses: for each statement with hypotheses, a case of each clause that meets them -/

theorem witness_StepRunsFrontCommand : { running with pending := [.wakingEnd] }.pending = .wakingEnd :: [] ∧
    running.pending = [] := by decide +kernel

theorem witness_StartUp : State.reset.power.state = .init ∧ State.reset.power.resetN = true ∧
    (State.powerOn false false .closed .closed []).power.state = .init ∧
    (State.powerOn false false .closed .closed []).power.resetN = false := by decide +kernel

/-- RUN and quiet, RUN and not quiet, quiet with both consents, and not in RUN. -/
theorem witness_SettleJudgesPower : running.quiet = true ∧ running.sleepAgreed = false ∧ running.power.state = .run ∧
    atA.quiet = false ∧ (running.setPort .a { running.portA with txn := .opened false }).portA.txn = .opened false ∧
    { running with portA := { running.portA with consent := true },
                   portB := { running.portB with consent := true } }.sleepAgreed = true ∧
    State.reset.power.state ≠ .run := by decide +kernel

/-- The part in a power state, at rest. -/
def powered (st : PowerState) : State := { running with power := { running.power with state := st } }

theorem witness_SelectFall : (powered .run).portA.txn = .closed ∧ (powered .run).power.state = .run ∧
    (powered .doze).portB.txn = .closed ∧ (powered .doze).power.state = .doze ∧
    (powered .waking).portA.txn = .closed ∧ (powered .waking).power.state = .waking ∧
    State.reset.portA.txn = .closed ∧ State.reset.power.state = .init ∧
    (powered .sleep).portB.txn = .closed ∧ (powered .sleep).power.state = .sleep := by decide +kernel

theorem witness_SleepAndDoze : (powered .waking).power.state = .waking ∧
    { running with power := { running.power with dozeTimer := some 0 } }.power.dozeTimer.isSome = true ∧
    (let s := { atA with portB := { running.portB with consent := true } }
     let u := s.setPort .a { s.ended .a 1 .ok with consent := true }
     (s.takes .a ∧ s.power.state = .run ∧ u.quiet = true ∧ (s.port .b).consent = true ∧ ∀ z, s.zone z = none) ∧
       LanesSound s) :=
  ⟨by decide +kernel, by decide +kernel, by decide +kernel, by constructor <;> decide +kernel⟩

theorem witness_FrameRoundTrip : (Instr.unknownCommand .a []).wellFormed = true ∧
    frameOf (.unknownCommand .a []) = some (.a, []) ∧ (Instr.readPixels .b .code).wellFormed = true ∧
    frameOf (.readPixels .b .code) = some (.b, [0x07]) ∧
    [(0x5B : Byte), 1].head? ∉ [some (0x04 : Byte), some 0x05, some 0x07] := by decide +kernel

/-- A geometry sweep runs and Port A holds a SLEEP, with a later transaction under way. -/
def sweeping (heard : Bool) : State :=
  { running with
    power := { running.power with geometrySweep := true }
    portA := { running.portA with held := [.command (.sleep .a [])], txn := .opened heard } }

/-- A fixed command one byte short and one long, a query short, no byte taken, an unknown code. -/
theorem witness_WrongFrameRefused : requestOf (.setFormat .a []) = some (.a, [], false, 1) ∧
    requestOf (.setFormat .a [0, 0]) = some (.a, [0, 0], false, 1) ∧
    requestOf (.getPixel .a [0, 0, 0]) = some (.a, [0, 0, 0], true, 4) ∧ (atA.port .a).txn = .opened true ∧
    portOfCommand (.tableData .a []) = some .a ∧
    ((running.setPort .a { running.portA with txn := .opened false }).port .a).txn = .opened false ∧
    [(0x5C : Byte)] ≠ [] ∧ namesNoCommand [0x5C] = true := by decide +kernel

/-- A transaction of Port A that met READY high, two response bytes to go out, when a geometry sweep begins. -/
def interrupted : State :=
  { atA with power := { running.power with geometrySweep := true }
             portA := { atA.portA with response := [7, 8], dataOut := [] } }

/-- The same with the sweep over. -/
def resumed (s : State) : State := { s with power := running.power }

/-- The command byte, taken before READY fell, carried 7; the byte clocked after it carries zero (R61, R171). -/
theorem test_readbackByte_before_rise : after (exec (.readbackByte .a) interrupted) (fun t =>
      decide (t.portA.dataOut = [0]) &&
      after (exec (.getResult .a []) t) (fun u => decide (u.portA.dataOut = [7, 0])) &&
      after (exec (.unknownCommand .a [0x08]) t) (fun u => decide (u.portA.dataOut = [7, 0]))) = true := by
  decide +kernel

/-- READY high again at the rise: the zero first, or after a command byte taken ahead (Log 6). -/
theorem test_readbackByte_taken_ahead : after (exec (.readbackByte .a) interrupted) (fun t =>
      after (exec (.getResult .a [0]) (resumed t)) (fun u => decide (u.portA.dataOut = [0, 7, 8]))) = true ∧
    after (exec (.readbackByte .a) (resumed interrupted)) (fun t => decide (t.portA.dataOut = [7]) &&
      after (exec (.readbackByte .a) { t with power := interrupted.power }) (fun u =>
        after (exec (.getResult .a [0]) (resumed u)) (fun v => decide (v.portA.dataOut = [7, 0, 8])))) = true := by
  decide +kernel

/-- Only a SLEEP that is held keeps the consent given before (R164). -/
theorem test_held_consent : let s := { interrupted with portA := { interrupted.portA with consent := true } }
    after (exec (.sleep .a []) s) (fun t => decide (t.portA.held = [.command (.sleep .a [])]) && t.portA.consent) = true ∧
    after (exec (.setFormat .a [1]) s) (fun t =>
      decide (t.portA.held = [.command (.setFormat .a [1])]) && !t.portA.consent) = true := by decide +kernel

/-- No byte taken, behind a held SLEEP (R168). -/
theorem witness_WrongFrameRefused_untaken : ((sweeping false).port .a).txn = .opened false ∧
    (sweeping false).power.geometrySweep = true ∧ ((sweeping false).port .a).held ≠ [] ∧
    ((sweeping true).port .a).txn = .opened true ∧
    after (exec (.readPixels .a .rise) (sweeping false)) (fun t =>
      decide (t.portA.held = [.command (.sleep .a []), .untaken] ∧ t.portA.result = .ok)) = true := by decide +kernel

theorem witness_TransactionsOutOfTurn : requestOf (.getPixel .a [0, 0, 0, 0]) = some (.a, [0, 0, 0, 0], true, 4) ∧
    (let s := { atA with power := { atA.power with geometrySweep := true } }
     (s.port .a).txn = .opened true ∧ s.power.geometrySweep = true) ∧
    requestOf (.tableData .a [1]) = some (.a, [1], true, 0) ∧ portOfCommand (.tableData .a [1]) = some .a ∧
    namesNoCommand [0x5C, 1] = true ∧
    ((running.setPort .a { running.portA with txn := .discarded }).port .a).txn = .discarded ∧
    (running.port .a).txn = .closed := by decide +kernel

/-- Bounds out of order by one, at the edge of the area, and one past it. -/
theorem witness_SetWindow : atA.takes .a ∧ ¬ (5 ≤ 4 ∧ 0 ≤ 0) ∧ (0 ≤ 1447 ∧ 0 ≤ 1071) ∧ (1448 ≤ 1448 ∧ 0 ≤ 65535) ∧
    1 ≤ atA.width ∧ 1 ≤ atA.height := by decide +kernel

theorem witness_SetFormatAndOrientation : atA.takes .a ∧ 2 < (3 : Byte).toNat ∧ 3 < (4 : Byte).toNat ∧
    1 < (2 : Byte).toNat := by decide +kernel

/-- The corners of the smallest and of a wide panel. -/
theorem witness_PortMapping : 1 ≤ 1 ∧
    (portWidth .rot90 1448 1072 = 1072 ∧ portHeight .rot90 1448 1072 = 1448) ∧
    ((0 < 1072 ∧ 0 < 1448) ∧ (1071 < 1072 ∧ 1447 < 1448)) ∧
    Rect.Fits ⟨0, 0, 1071, 1447⟩ (portWidth .rot90 1448 1072) (portHeight .rot90 1448 1072) :=
  ⟨by decide, by decide, by decide, ⟨by decide, by decide⟩⟩

theorem witness_PixelCommand : (atA.port .a).txn = .opened true ∧ atA.ready .a = true ∧
    (let s := powered .waking
     ((s.setPort .a { s.portA with txn := .opened false }).port .a).txn = .opened false ∧
     (s.setPort .a { s.portA with txn := .opened false }).ready .a = false) ∧
    (writing.port .a).txn = .writing false false ∧
    (let s := { writing with power := { writing.power with geometrySweep := true } }
     (s.port .a).txn = .writing false false ∧ s.power.geometrySweep = true) ∧
    ((reading none [] true).port .a).txn = .reading ⟨none, [], true, false⟩ := by decide +kernel

/-- READY low by each condition of R61 alone, and on both sides of each bound. -/
theorem witness_PixelCommand_ready :
    let full (n : Nat) : State := running.setPort .a { running.portA with stream := List.replicate n (.pixel (0, 0) 0) }
    let pixels (n : Nat) : State := writing.setPort .a { (full n).portA with txn := writing.portA.txn, ctx := writing.portA.ctx }
    State.reset.ready .a = false ∧ (powered .waking).ready .a = false ∧ (powered .doze).ready .a = true ∧
    { running with power := { running.power with geometrySweep := true } }.ready .a = false ∧
    { running with power := { running.power with resetWait := true } }.ready .a = false ∧
    (loading true [] 0).ready .a = false ∧ (loading true [] 0).ready .b = true ∧ (loading false [] 0).ready .a = true ∧
    (full 63).ready .a = true ∧ (full 64).ready .a = false ∧ (pixels 62).ready .a = true ∧ (pixels 63).ready .a = false ∧
    (reading (some (0, 0)) [3] true).ready .a = false ∧ (reading (some (0, 0)) [3] false).ready .a = true ∧
    (reading none [3] true).ready .a = true ∧ (reading (some (0, 0)) [3, 4] true).ready .a = true := by decide +kernel

/-- Room for exactly the byte's pixels, and for one less. -/
theorem witness_PixelDataByte : (writing.port .a).txn = .writing false false ∧
    (writing.setPort .a { writing.portA with stream := List.replicate 62 (.pixel (0, 0) 0) }).ready .a = true ∧
    (writing.setPort .a { writing.portA with stream := List.replicate 63 (.pixel (0, 0) 0) }).ready .a = false := by
  decide +kernel

theorem witness_FillWindow : atA.takes .a ∧ (15 : Byte).toNat = (15 : Level).val ∧ 15 < (16 : Byte).toNat := by
  decide +kernel

/-- A level to grant, the dummy byte, two levels, the odd last one, past the end, and READY low for want of a level. -/
theorem witness_ReadbackBytes : ((reading (some (0, 0)) [3] true).port .a).txn = .reading ⟨some (0, 0), [3], true, false⟩ ∧
    (reading (some (0, 0)) [3] true).turn = some (requesterOf .a) ∧
    ((reading (some (0, 0)) [3] true).port .a).stream = [] ∧ (reading (some (0, 0)) [] false).ready .a = true ∧
    (reading (some (0, 0)) [1, 2] true).ready .a = true ∧ (reading none [1] true).ready .a = true ∧
    (reading none [] true).ready .a = true ∧ (reading (some (0, 0)) [3] true).ready .a = false := by decide +kernel

theorem witness_DrainsWriteImage : (streaming [.pixel (2047, 3) 3]).turn = some (requesterOf .a) ∧
    Store.wf (15 : Level) running.image = true ∧
    ((streaming [.fill ⟨4, 5, 6, 7⟩ 2 (6, 7)]).port .a).stream = [.fill ⟨4, 5, 6, 7⟩ 2 (6, 7)] ∧
    (streaming [.fill ⟨4, 5, 6, 7⟩ 2 (6, 7)]).turn = some (requesterOf .a) := by decide +kernel

/-- The lowest mode that the table does not define, the highest that it defines, and no VALID table. -/
theorem witness_DrainSubmitEntry : loaded.table.phase = .valid ∧ loaded.table.table = some table ∧
    table.header.modeCount ≤ 1 ∧ 0 < table.header.modeCount ∧ running.table.phase ≠ .valid ∧
    (((streaming [.submit ⟨.a, 8, 1, ⟨0, 0, 9, 9⟩, .skip, false⟩]).port .a).stream =
      [.submit ⟨.a, 8, 1, ⟨0, 0, 9, 9⟩, .skip, false⟩]) := by decide +kernel

/-- Both ports and the Survey Engine wait. -/
def contended (last : Requester) : State :=
  { running with
    lastGrant := last, survey := some ⟨0, some (0, 0), 64, 12, plainMode, none, none⟩
    portA := { running.portA with stream := [.pixel (0, 0) 0] }
    portB := { running.portB with stream := [.pixel (1, 1) 1] } }

theorem witness_ArbiterRotation : (contended .survey).waits .portA = true ∧ (contended .portA).waits .portB = true ∧
    (contended .portB).waits .survey = true ∧ (contended .survey).waits .survey = true ∧
    (contended .survey).turn = some .portA ∧ (contended .portA).turn = some .portB ∧
    (contended .portB).turn = some .survey ∧ running.turn = none := by decide +kernel

/-- Each refusal of R71 and R72, and an accepted request. -/
theorem witness_SubmitUpdate : atA.takes .a ∧ 7 < (8 : Byte).toNat ∧ 1 < (2 : Byte).toNat ∧
    { atA with supply := { atA.supply with state := .halted } }.supply.state = .halted ∧
    (opened .a pageTurn).takes .a ∧ (∃ q ∈ (opened .a pageTurn).queue, q.port = .a ∧ q.tag = 20) ∧
    (opened .a crowded).takes .a ∧
    24 < crowded.queue.length + (crowded.streamRequests .a).length + (crowded.streamRequests .b).length + 1 ∧
    16 < (crowded.queue.filter fun q => q.port = .b).length + (crowded.streamRequests .b).length + 1 := by
  decide +kernel

/-- Port A holds tag 44 in one lane of the state given. -/
def holding (st : LaneState) : State := opened .a (running.setLane 6 (laneOf st 0 0))

theorem witness_Withdraw : (opened .a pageTurn).takes .a ∧
    pageTurn.queue = [] ++ ⟨.a, 20, 2, ⟨0, 0, 723, 1071⟩, .hold, false⟩ :: pageTurn.queue.tail ∧
    (opened .a (streaming [.submit ⟨.a, 8, 1, ⟨0, 0, 9, 9⟩, .skip, false⟩])).takes .a ∧
    (∀ st ∈ [LaneState.pending, .survey, .armed, .running, .retiring], (holding st).takes .a ∧
      ((holding st).lane 6).state = st ∧
      ∀ k, ((holding st).lane k).state ≠ .free ∧ ((holding st).lane k).owner = .a ∧ ((holding st).lane k).tag = 44 →
        k = 6) ∧
    { holding .survey with survey := some (surveying none) }.survey.map Survey.lane = some 6 ∧
    ∀ l, ¬ ((atA.lane l).state ≠ .free ∧ (atA.lane l).owner = .a ∧ (atA.lane l).tag = 9) := by decide +kernel

theorem witness_Scheduler : pageTurn.choose = some 4 ∧ pageTurn.queue[4]?.isSome = true ∧
    (pageTurn.lane 0).state = .free ∧ pageTurn.eligible (pageTurn.queue.take 4) ⟨.a, 22, 1, ⟨724, 0, 999, 299⟩, .hold, true⟩ =
      true ∧
    pageTurn.eligible [] ⟨.a, 20, 2, ⟨0, 0, 723, 1071⟩, .hold, false⟩ = false ∧ running.choose = none ∧
    (Rect.meets ⟨0, 0, 4, 4⟩ ⟨4, 4, 9, 9⟩ = true ∧ Rect.meets ⟨0, 0, 4, 4⟩ ⟨5, 4, 9, 9⟩ = false) := by decide +kernel

theorem witness_ReserveAndRelease : (opened .a pageTurn).takes .a ∧ 3 < (4 : Byte).toNat ∧
    (3 : Byte).toNat = (3 : Fin 4).val ∧ (opened .a pageTurn).zone 3 = none ∧
    (∃ zone, (opened .a pageTurn).zone 0 = some zone ∧ zone.owner ≠ .a) ∧ (opened .b pageTurn).takes .b ∧
    ∃ zone, (opened .b pageTurn).zone 0 = some zone ∧ zone.owner = .b :=
  ⟨by decide +kernel, by decide, by decide, by decide +kernel, ⟨_, rfl, by decide⟩, by decide +kernel, ⟨_, rfl, rfl⟩⟩

theorem witness_TimedLapses : pageTurn.zone 0 = some ⟨.b, ⟨600, 300, 899, 499⟩, 1500⟩ ∧
    { loaded with temp := ⟨.fresh, some 9, some 0, some 60, 1, 60⟩ }.temp.freshness = .fresh ∧
    { loaded with temp := ⟨.fresh, some 9, some 0, some 60, 1, 60⟩ }.temp.staleTimer.isSome = true := by decide +kernel

theorem witness_ReportTemperature : atA.takes .a ∧ atA.table.phase ≠ .valid ∧
    (opened .a (warm .fresh 19 3)).takes .a ∧ (warm .fresh 19 3).table.phase = .valid ∧
    (warm .fresh 19 3).table.table = some bandsTable ∧ (warm .fresh 19 3).temp.freshness = .fresh ∧
    (warm .fresh 19 3).temp.band = some 3 ∧ (warm .stale 19 3).temp.freshness ≠ .fresh := by decide +kernel

theorem witness_TableCommands : (opened .a loaded).takes .a ∧ loaded.table.phase = .valid ∧
    (holding .armed).takes .a ∧ ((holding .armed).lane 6).state ≠ .free ∧ (∀ l, (loaded.lane l).state = .free) ∧
    (opened .a (loading false [] 0)).takes .a ∧ (loading false [] 0).table.phase = .loading .a false ∧
    (opened .b (loading true [] 0)).takes .b ∧ (loading true [] 0).table.phase = .loading (otherPort .b) true ∧
    (loading false [] 65535).table.received + [(7 : Byte)].length ≤ 65536 ∧
    65536 < (loading false [] 65536).table.received + [(7 : Byte)].length ∧ running.table.phase = .empty ∧
    { running with table := ⟨.invalid .badMap, [], 0, none⟩ }.table.phase = .invalid .badMap := by decide +kernel

theorem witness_ValidationEnd : (loading true [] 0).table.phase = .loading .a true ∧
    validateImage (loading true [] 0).table.memory = .error .badHeader ∧
    validateImage (loading true table.image 575).table.memory = .ok table := by decide +kernel

/-- The modes of the small table are its one mode. -/
theorem table_modes (i : Nat) (m : ModeRecord) (h : table.modes[i]? = some m) : i = 0 ∧ m = plainMode := by
  match i with
  | 0 => exact ⟨rfl, by simpa [table] using h.symm⟩
  | _ + 1 => simp [table] at h

theorem witness_TableImageRoundTrip : table.Legal ∧ validateImage table.image = .ok table := by
  refine ⟨⟨⟨by decide, by decide, by decide, by decide, by decide, by decide⟩, by decide, by decide, by decide,
    by decide +kernel, ⟨by decide, by decide⟩, ?_, by decide +kernel, by decide +kernel, ?_, ?_⟩, by decide +kernel⟩
  · intro i m h
    obtain ⟨rfl, rfl⟩ := table_modes i m h
    exact ⟨by decide, by decide, fun x hx => by simp [plainMode] at hx⟩
  · intro r hr
    simp only [table, List.mem_cons, List.not_mem_nil, or_false] at hr
    rcases hr with rfl | rfl | rfl | rfl <;> exact ⟨by decide, by decide, by decide, by decide⟩
  · intro mode m band dest v h hb _
    obtain ⟨rfl, rfl⟩ := table_modes mode m h
    obtain rfl : band = 0 := by simp [table] at hb; exact hb
    refine ⟨Recipe.ofSegments [(.neg, 3), (.pos, 5)], ?_, by decide⟩
    revert dest
    cases v <;> decide +kernel

/-- An image for each failing step of R30: no header; a byte more than stated; a header alone; a header and its bands; no
map; no recipe, a recipe cut short, one of nine segments; a byte after the pool; an entry past the pool; an UNKNOWN row
of length 0. -/
theorem witness_ValidationEnd_codes :
    let h (n : Nat) : Header := { table.header with length := n }
    let map := table.map.flatMap (bytesOf 2)
    let pool := table.pool.flatMap Recipe.image
    let bands := table.bands.flatMap BandRecord.image
    let modes := table.modes.flatMap ModeRecord.image
    (¬ ∃ (h : Header) (rest : List Byte), h.Legal ∧ [] = h.image ++ rest) ∧
    (∀ n ∈ [10, 11, 13, 19, 563, 564, 566, 573, 575, 576], (h n).Legal) ∧ BandsLegal table.bands ∧ ModesLegal table.modes ∧
    table.bands.length = (h 0).bandCount ∧ table.modes.length = (h 0).modeCount ∧ table.pool.length = (h 0).recipeCount ∧
    table.map.length = mapSize (h 0).bandCount table.modes ∧ (∀ n ∈ table.map, n < 65536) ∧ (∀ r ∈ table.pool, r.Legal) ∧
    10 ≠ ((h 10).image ++ [0]).length ∧ 10 = ((h 10).image ++ []).length ∧
    (¬ ∃ bs rest, bs.length = 1 ∧ BandsLegal bs ∧ [] = bs.flatMap BandRecord.image ++ rest) ∧
    13 = ((h 13).image ++ bands).length ∧
    (¬ ∃ ms rest, ms.length = 1 ∧ ModesLegal ms ∧ [] = ms.flatMap ModeRecord.image ++ rest) ∧
    19 = ((h 19).image ++ (bands ++ modes)).length ∧ 0 < 2 * mapSize 1 table.modes ∧
    563 = ((h 563).image ++ (bands ++ (modes ++ map))).length ∧ 0 < (h 0).recipeCount ∧
    564 = ((h 564).image ++ (bands ++ (modes ++ (map ++ [1])))).length ∧ ([] : List Byte).length < (1 : Byte).toNat ∧
    573 = ((h 573).image ++ (bands ++ (modes ++ (map ++ (9 :: List.replicate 9 1))))).length ∧
    (¬ ∃ r : Recipe, r.Legal ∧ r.image = 9 :: List.replicate 9 1) ∧
    576 = ((h 576).image ++ (bands ++ (modes ++ (map ++ (pool ++ [0]))))).length ∧
    575 = ((h 575).image ++ (bands ++ (modes ++ (map ++ pool)))).length ∧ (∃ n ∈ List.replicate 272 4, 4 ≤ n) ∧
    ∃ r, ({ table with map := List.replicate 272 0 } : Table).lookup 0 0 none 15 .p = some r ∧ r.length = 0 := by
  refine ⟨?_, ?_, ⟨by decide, by decide⟩, witness_TableImageRoundTrip.1.modes, by decide, by decide, by decide,
    by decide +kernel, by decide +kernel, witness_TableImageRoundTrip.1.pool, by decide, by decide, ?_, by decide, ?_,
    by decide, by decide +kernel, by decide +kernel, by decide, by decide +kernel, by decide, by decide +kernel, ?_,
    by decide +kernel, by decide +kernel, by decide +kernel, ⟨Recipe.ofSegments [], by decide +kernel, rfl⟩⟩
  · rintro ⟨h, rest, _, e⟩
    simp [Header.image] at e
  · intro n hn
    obtain ⟨v, mc, bc, sb, rc, _⟩ := witness_TableImageRoundTrip.1.header
    exact ⟨v, mc, bc, sb, rc, by revert n; decide⟩
  · rintro ⟨bs, rest, hl, _, e⟩
    obtain ⟨b, rfl⟩ := List.length_eq_one_iff.mp hl
    simp [BandRecord.image] at e
  · rintro ⟨ms, rest, hl, _, e⟩
    obtain ⟨m, rfl⟩ := List.length_eq_one_iff.mp hl
    simp [ModeRecord.image] at e
  · rintro ⟨r, hr, e⟩
    have hl := congrArg List.length e
    have := hr.count
    simp [Recipe.image] at hl
    omega

theorem witness_RecipeLookup : table.Legal ∧ table.modes[0]? = some plainMode ∧ 0 < table.bands.length ∧
    plainMode.levels.holds 15 = true ∧
    (driving 3 127 false).table.table = some table ∧
    ((⟨some 15, some 2, 2, .p, 127, 5⟩ : PixelRecord).lane = some 2 ∧
      ((driving 3 127 false).lane 2).state = .running ∧ ((driving 3 127 false).lane 2).band = some 0 ∧
      ((driving 3 127 false).lane 3).state ≠ .running) ∧
    table.lookup 0 0 (some 15) 2 .p = some (Recipe.ofSegments [(.pos, 4), (.neg, 8), (.hold, 2)]) :=
  ⟨witness_TableImageRoundTrip.1, rfl, by decide, by decide, rfl, by decide +kernel, by decide +kernel⟩

/-- Every duration at an end of its range and one past it. -/
theorem witness_SharedSettings : atA.takes .a ∧
    (10000 ≤ 10000 ∧ (1 ≤ 1 ∧ 1 ≤ 255) ∧ (1 ≤ 255 ∧ 255 ≤ 255) ∧ 0 ≤ 10000 ∧ (1 ≤ 600 ∧ 600 ≤ 600) ∧
      (100 ≤ 100 ∧ 100 ≤ 10000)) ∧ ¬ (100 ≤ 99 ∧ 99 ≤ 10000) ∧ 4095 < 4096 ∧ 4096 ≤ 4096 ∧ 4096 < 65536 := by
  decide +kernel

theorem witness_SetGeometry : atA.takes .a ∧ (64 ≤ 2048 ∧ 2048 ≤ 2048 ∧ 64 ≤ 64 ∧ 64 ≤ 1600) ∧
    ¬ (64 ≤ 64 ∧ 64 ≤ 2048 ∧ 64 ≤ 1601 ∧ 1601 ≤ 1600) ∧
    ((∀ l, (atA.lane l).state = .free) ∧ atA.queue = [] ∧ atA.portA.stream = [] ∧ atA.portB.stream = [] ∧
      (∀ z, atA.zone z = none) ∧ (atA.port (otherPort .a)).txn = .closed) ∧
    (opened .a pageTurn).takes .a ∧ (opened .a pageTurn).queue ≠ [] := by decide +kernel

theorem witness_GeometrySweepEnd : { running with power := { running.power with geometrySweep := true } }.power.geometrySweep = true ∧
    (running.port .a).held = [] ∧ running.power.geometrySweep = false ∧
    requestOf (.tableData .b []) = some (.b, [], true, 0) ∧
    requestOf (.getPixel .a [0, 0, 0, 0]) = some (.a, [0, 0, 0, 0], true, 4) ∧ atA.takes .a := by decide +kernel

theorem witness_ShortQueries : atA.takes .a ∧ atB.takes .b := by decide +kernel

/-- One record, none, fifteen and sixteen. -/
theorem witness_DoneQueue :
    let d : DoneRecord := ⟨44, .withdrawn, 3, 3, false, false, none⟩
    let s (n : Nat) : State := running.setPort .a { running.portA with done := List.replicate n d }
    (opened .a (s 1)).takes .a ∧ ((opened .a (s 1)).port .a).done = d :: [] ∧ (atA.port .a).done = [] ∧
    ((s 15).port .a).done.length < 16 ∧ 16 ≤ ((s 16).port .a).done.length := by decide +kernel

theorem witness_GetPixel : atA.takes .a ∧ (1447 < atA.width ∧ 1071 < atA.height) ∧
    ¬ (1448 < atA.width ∧ 0 < atA.height) := by decide +kernel

theorem witness_StatusQueries : atA.takes .a ∧ atA.table.phase = .empty ∧ (loading true [] 0).table.phase = .loading .a true ∧
    { running with table := ⟨.invalid .badMap, [], 0, none⟩ }.table.phase = .invalid .badMap ∧
    loaded.table.phase = .valid ∧ loaded.table.table = some table := by decide +kernel

/-- The page turn with its three lanes waiting, lane 3 of Port B among them, is a state whose lanes are sound. -/
theorem lanesSound_pageTurn : LanesSound (opened .a pageTurn.reconsider) := by constructor <;> decide +kernel

theorem witness_PortReset : (opened .a pageTurn.reconsider).takes .a ∧ LanesSound (opened .a pageTurn.reconsider) :=
  ⟨by decide +kernel, lanesSound_pageTurn⟩

/-- Each state of the supply in which PART_RESET may find it, with the scan idle. -/
theorem witness_PartReset : (opened .a pageTurn.reconsider).takes .a ∧ LanesSound (opened .a pageTurn.reconsider) ∧
    pageTurn.reconsider.supply.state = .off ∧ pageTurn.reconsider.scan.scanning = false ∧
    (∀ st ∈ [SupplyState.rising, .falling, .tripped], (opened .a (supplied st false)).takes .a) ∧
    LanesSound (opened .a (supplied .rising false)) ∧ LanesSound (opened .a (supplied .falling false)) ∧
    LanesSound (opened .a (supplied .tripped true)) ∧
    (opened .a (driving 3 127 false)).takes .a ∧ LanesSound (opened .a (driving 3 127 false)) ∧
    (driving 3 127 false).supply.state = .on ∧ (driving 3 127 false).scan.scanning = true ∧
    LanesSound (opened .a { running with supply := { running.supply with state := .halted } }) := by
  refine ⟨by decide +kernel, lanesSound_pageTurn, by decide +kernel, by decide +kernel, by decide +kernel, ?_, ?_, ?_,
    by decide +kernel, ?_, by decide +kernel, by decide +kernel, ?_⟩ <;>
    constructor <;> decide +kernel

theorem witness_SurveyStart : pageTurn.reconsider.survey = none ∧ pageTurn.reconsider.surveyList = 0 :: [1, 2] ∧
    pageTurn.reconsider.temp.freshness ≠ .fresh ∧ (warm .fresh 19 3).temp.freshness = .fresh := by decide +kernel

/-- The stores of a state whose Pixel State Store lists one record, of a lane, are sound. -/
theorem storesSound_one (s : State) (a : Nat) (r : PixelRecord) (form : Memory.wf s = true) (h : s.pixels = [(a, r)])
    (hr : -127 ≤ r.residue ∧ r.residue ≤ 127) (hw : r.wear ≤ 15) (hl : r.lane = none → r.target = 0 ∧ r.variant = .n) :
    StoresSound s :=
  ⟨form, fun c hc => by
    rw [h, List.mem_singleton] at hc
    subst hc
    exact ⟨hr, hw, hl⟩⟩

/-- A visit with the level not yet read and with it read; a busy, an unknown, an unchanged and a claimed pixel. -/
theorem witness_SurveyVisit :
    claiming.survey = some ⟨6, some (300, 500), 127, 12, plainMode, none, none⟩ ∧ claiming.turn = some .survey ∧
    { claiming with survey := some ⟨6, some (300, 500), 127, 12, plainMode, none, some 2⟩ }.survey.bind Survey.read =
      some 2 ∧
    (claiming.pixel (300, 500)).lane = none ∧ (claiming.pixel (300, 500)).shown = some 15 ∧
    (claiming.lane 6).policy ≠ .skip ∧ ((retiring none).pixel (302, 500)).lane ≠ none ∧
    (running.pixel (300, 500)).shown = none ∧ plainMode.acceptsUnknown = false ∧ plainMode.promote = none ∧
    ((claiming.setPixel (300, 500) ⟨some 2, none, 0, .n, 0, 0⟩).pixel (300, 500)).shown = some 2 ∧
    plainMode.drivesUnchanged = false ∧ StoresSound claiming :=
  ⟨by decide +kernel, by decide +kernel, by decide +kernel, by decide +kernel, by decide +kernel, by decide +kernel,
    by decide +kernel, by decide +kernel, by decide, by decide, by decide +kernel, by decide,
    storesSound_one _ (500 * 2048 + 300) ⟨some 15, none, 0, .n, 125, 5⟩ (by decide +kernel) (by decide +kernel)
      (by decide) (by decide) (by decide)⟩

/-- No pixel claimed, a frame count of 0, a frame count above 0; the ratio met exactly and missed by one. -/
theorem witness_SurveyEnd : (surveying none).pos = none ∧
    ({ loaded with survey := some (surveying none) }).survey = some (surveying none) ∧
    (surveying none).mode.promote = some 1 ∧ (8 > 0 ∧ 3 * 256 ≥ (surveying none).mode.ratio * 8) ∧
    ¬ (8 > 0 ∧ 2 * 256 ≥ (surveying none).mode.ratio * 8) ∧ plainMode.promote = none ∧
    (let L := ({ laneOf .survey 0 0 with longestRequested := 24 }).decided plainMode
     0 < L.claimed ∧ 0 < L.frameCount) ∧
    ((laneOf .survey 0 0).decided plainMode).frameCount = 0 ∧
    (({ laneOf .survey 0 0 with claimed := 0 }).decided plainMode).claimed = 0 := by decide +kernel

theorem witness_ScanStart : waiting.armingList = 4 :: [5] ∧ waiting.supply.state = .on ∧ waiting.scan.scanning = false := by
  decide +kernel

theorem storesSound_driving : StoresSound (driving 3 127 false) :=
  storesSound_one _ (9 * 2048) ⟨some 15, some 2, 2, .p, 127, 5⟩ (by decide +kernel) (by decide +kernel)
    (by decide) (by decide) (by decide)

/-- The walk's first pixel of a row, with a whole row and more still to visit. -/
theorem witness_FrameRow : (driving 3 127 false).scan.scanning = true ∧
    (driving 3 127 false).scan.walkRow < (driving 3 127 false).height ∧ 0 < 65 ∧ (driving 3 127 false).width ≤ 2048 ∧
    StoresSound (driving 3 127 false) :=
  ⟨by decide +kernel, by decide +kernel, by decide, by decide +kernel, storesSound_driving⟩

/-- The walk complete, with a lane that goes on, one that ends, and one that is aborted. -/
theorem witness_FrameBoundary :
    let whole (s : State) : State := s.withScan { s.scan with walkRow := 64, walkCol := 0 }
    (∀ s ∈ [whole (driving 3 127 false), whole (driving 13 119 false), whole (driving 9 122 true)],
      s.scan.scanning = true ∧ s.height ≤ s.scan.walkRow ∧ ∀ l, (s.lane l).saturated ≤ 65535) ∧
    ((driving 3 127 false).lane 2).state = .running ∧
    ((driving 13 119 false).lane 2).frameIndex + 1 = ((driving 13 119 false).lane 2).frameCount ∧
    ((driving 9 122 true).lane 2).abort = true := by decide +kernel

theorem witness_BoundaryTakesRest : (driving 3 127 false).scan.scanning = true ∧ (driving 3 127 false).width ≤ 2048 ∧
    StoresSound (driving 3 127 false) := ⟨by decide +kernel, by decide +kernel, storesSound_driving⟩

/-- The two records of the retire walk of 07's worked sequence are sound, and one is not yet taken. -/
theorem witness_RetireVisit : (retiring (some (302, 500))).retire = some ⟨6, some (302, 500), false, 1⟩ ∧
    ((retiring (some (302, 500))).pixel (302, 500)).lane = some 6 ∧
    ((retiring (some (303, 500))).pixel (303, 500)).lane ≠ some 6 ∧ StoresSound (retiring (some (302, 500))) := by
  refine ⟨by decide +kernel, by decide +kernel, by decide +kernel, by decide +kernel, ?_⟩
  intro c hc
  have h : (retiring (some (302, 500))).pixels =
    [(500 * 2048 + 301, ⟨some 10, some 6, 12, .n, 1, 15⟩), (500 * 2048 + 302, ⟨some 2, some 6, 13, .n, -2, 5⟩)] := by
    decide +kernel
  rw [h] at hc
  simp only [List.mem_cons, List.not_mem_nil, or_false] at hc
  rcases hc with rfl | rfl <;> exact ⟨by decide, by decide, by decide⟩

theorem witness_RetireWalkEnd : (retiring none).retire = some ⟨6, none, false, 1⟩ ∧
    ((retiring none).lane 6).outcome = some .withdrawn ∧ (loaded.withRetireList [3]).retire = none ∧
    (loaded.withRetireList [3]).retireList = 3 :: [] ∧ running.retireList = [] := by decide +kernel

theorem witness_SupplyPhases : (supplied .rising false).supply.state = .rising ∧ running.supply.state ≠ .rising ∧
    running.supply.state ≠ .on ∧
    { running with supply := { running.supply with state := .on, parkTimer := some 0 } }.supply.parkTimer.isSome =
      true ∧
    (supplied .tripped true).supply.fallTimer.isSome = true ∧ (supplied .tripped true).armingList ≠ [] ∧
    (supplied .tripped true).supply.railGood = false ∧
    { running with supply := { running.supply with state := .falling, fallTimer := some 1 } }.armingList = [] ∧
    { running with supply := { running.supply with state := .halted, fallTimer := some 1 } }.supply.state =
      .halted := by decide +kernel

theorem witness_Trip : (driving 3 127 false).supply.state = .on ∧ (driving 3 127 false).supply.recovery = false ∧
    (supplied .rising false).supply.state = .rising ∧ (supplied .rising false).supply.riseTimer.isSome = true ∧
    (supplied .rising false).supply.recovery = false := by decide +kernel

theorem witness_Halt : (supplied .rising true).supply.state = .rising ∧
    (supplied .rising true).supply.riseTimer.isSome = true ∧ (supplied .rising true).supply.recovery = true ∧
    LanesSound (supplied .rising true) ∧
    (let s := { driving 0 121 false with supply := { running.supply with state := .on, recovery := true } }
     s.supply.state = .on ∧ s.supply.recovery = true ∧ LanesSound s) := by
  refine ⟨by decide +kernel, by decide +kernel, by decide +kernel, ?_, by decide +kernel, by decide +kernel, ?_⟩ <;>
    constructor <;> decide +kernel

/-! ## A sound state with a lane in drive, and its step -/

/-- Lane 3 of 01's worked sequence in its fourth frame, on a 64 × 64 panel, with the row of its pixel next. -/
def live : State :=
  let ctx (q : PortState) : PortState := { q with ctx := PortContext.initial 64 64 }
  { driving 3 127 false with portA := ctx running.portA, portB := ctx running.portB, pending := [.frameRow 64] }

theorem live_pixel (x : Pos) (h : x.1 < 2048) (hl : (live.pixel x).lane ≠ none) :
    x = (0, 9) ∧ (live.pixel x).lane = some 2 := by
  have hp : live.pixels = [(9 * 2048, ⟨some 15, some 2, 2, .p, 127, 5⟩)] := by decide +kernel
  rw [State.pixel, hp] at hl ⊢
  simp only [Store.read] at hl ⊢
  split at hl
  · rename_i ha
    refine ⟨Prod.ext ?_ ?_, by simp [ha]⟩ <;> simp only [address, Config.maxWidth] at ha <;> omega
  · simp [PixelRecord.swept] at hl

theorem live_sound : Sound live := by
  refine ⟨?_, ?_, ?_, ?_, ?_, ?_, ?_, ?_⟩
  · exact storesSound_one _ (9 * 2048) ⟨some 15, some 2, 2, .p, 127, 5⟩ (by decide +kernel) (by decide +kernel)
      (by decide) (by decide) (by decide)
  · constructor <;> decide +kernel
  · constructor
    · intro p; cases p <;> decide +kernel
    · intro p; cases p <;> decide +kernel
    · intro p; cases p <;> decide +kernel
    · intro p i h; cases p <;> exact absurd h (by simp [live, State.port, running, State.reset, State.powerOn, PortState.initial])
    · intro p i h; cases p <;> exact absurd h (by simp [live, State.port, running, State.reset, State.powerOn, PortState.initial])
    · intro p q h; cases p <;> exact absurd h (by simp [live, State.port, running, State.reset, State.powerOn, PortState.initial])
    · intro p; cases p <;> decide +kernel
    · decide +kernel
    · intro p; cases p <;> decide +kernel
  · intro p; cases p <;> decide +kernel
  · constructor
    · decide +kernel
    · decide +kernel
    · intro _ p
      cases p <;>
      · refine ⟨⟨by decide +kernel, by decide +kernel⟩, ?_⟩
        intro x hx
        simp [live, State.port, PortContext.initial] at hx
        subst hx
        decide +kernel
    · intro p e h; cases p <;> exact absurd h (by simp [live, State.port, running, State.reset, State.powerOn, PortState.initial])
    · intro q h; rw [show live.queue = [] by decide +kernel] at h; simp at h
    · intro z zone h
      have hz : ∀ z, live.zone z = none := by decide +kernel
      rw [hz z] at h
      simp at h
    · intro l; exact ⟨by revert l; decide +kernel, by revert l; decide +kernel⟩
    · refine ⟨by decide +kernel, fun r h => ?_⟩
      rw [show live.scan.pendingMark = none by decide +kernel] at h
      simp at h
  · exact ⟨fun h => absurd h (by decide +kernel), fun h => absurd h (by decide +kernel), fun h => absurd h (by decide +kernel)⟩
  · refine ⟨by decide +kernel, by decide +kernel, ?_, by decide +kernel, ?_, by decide +kernel, by decide +kernel,
      by decide +kernel⟩
    · intro x h; rw [show live.temp.effective = none by decide +kernel] at h; simp at h
    · intro t _ h; exact absurd rfl h
  · constructor
    · intro x l hx h
      obtain ⟨rfl, h2⟩ := live_pixel x hx (by simp [h])
      obtain rfl : l = 2 := by rw [h2] at h; exact (Option.some.inj h).symm
      decide +kernel
    · intro w h; rw [show live.survey = none by decide +kernel] at h; simp at h
    · intro w h; rw [show live.retire = none by decide +kernel] at h; simp at h
    · decide +kernel
    · decide +kernel
    · decide +kernel
    · decide +kernel
    · decide +kernel
    · decide +kernel
    · intro t m x ht hm hx
      obtain rfl : table = t := by
        have h : live.table.table = some table := by decide +kernel
        rw [h] at ht; exact Option.some.inj ht
      obtain rfl : m = plainMode := by simpa [table] using hm
      simp [plainMode] at hx
    · intro w h; rw [show live.survey = none by decide +kernel] at h; simp at h
    · intro w x h; rw [show live.survey = none by decide +kernel] at h; simp at h
    · intro x l hx h hs
      obtain ⟨rfl, _⟩ := live_pixel x hx (by simp [h])
      exact absurd hs (by decide +kernel)

/-- The state and its step, for every statement of what a step keeps. -/
theorem witness_StepKeeps : Sound live ∧ StoresSound live ∧ LanesSound live ∧ QueuesSound live ∧ TemperatureSound live ∧
    ∃ t, step live = .next t :=
  ⟨live_sound, live_sound.stores, live_sound.lanes, live_sound.queues, live_sound.temperature, _, rfl⟩

end Sys2Proof.Tests
end

section
/-! What an event of the command link, the Power Controller or the timers can change (`LinkOnly`), and what an operation
over lanes, their lists and the engines can change (`LaneOnly`): each operation of the model is placed once, and what an
invariant does not read is then kept for free.
-/

namespace Sys2Proof.Machine

/-! ## Events of the link -/

/-- Nothing has changed but what the ports hold of their transactions, results and flags, the Power Controller and the
Temperature Unit: the streams, the contexts and the geometry sweep stand as before. -/
structure LinkOnly (s t : State) : Prop where
  body : t = { s with portA := t.portA, portB := t.portB, power := t.power, temp := t.temp }
  stream : ∀ p, (t.port p).stream = (s.port p).stream
  ctx : ∀ p, (t.port p).ctx = (s.port p).ctx
  sweep : t.power.geometrySweep = s.power.geometrySweep

namespace LinkOnly

variable {s t u : State}

theorem refl (s : State) : LinkOnly s s := ⟨rfl, fun _ => rfl, fun _ => rfl, rfl⟩

theorem trans (h : LinkOnly s t) (k : LinkOnly t u) : LinkOnly s u := by
  refine ⟨?_, fun p => (k.stream p).trans (h.stream p), fun p => (k.ctx p).trans (h.ctx p), k.sweep.trans h.sweep⟩
  rw [k.body, h.body]

theorem width (h : LinkOnly s t) : t.width = s.width := by rw [h.body]
theorem height (h : LinkOnly s t) : t.height = s.height := by rw [h.body]
theorem image (h : LinkOnly s t) : t.image = s.image := by rw [h.body]
theorem pixels (h : LinkOnly s t) : t.pixels = s.pixels := by rw [h.body]
theorem table (h : LinkOnly s t) : t.table = s.table := by rw [h.body]
theorem queue (h : LinkOnly s t) : t.queue = s.queue := by rw [h.body]
theorem zones (h : LinkOnly s t) : t.zones = s.zones := by rw [h.body]
theorem lanes (h : LinkOnly s t) : t.lanes = s.lanes := by rw [h.body]
theorem surveyList (h : LinkOnly s t) : t.surveyList = s.surveyList := by rw [h.body]
theorem survey (h : LinkOnly s t) : t.survey = s.survey := by rw [h.body]
theorem armingList (h : LinkOnly s t) : t.armingList = s.armingList := by rw [h.body]
theorem retireList (h : LinkOnly s t) : t.retireList = s.retireList := by rw [h.body]
theorem retire (h : LinkOnly s t) : t.retire = s.retire := by rw [h.body]
theorem scan (h : LinkOnly s t) : t.scan = s.scan := by rw [h.body]
theorem supply (h : LinkOnly s t) : t.supply = s.supply := by rw [h.body]
theorem lane (h : LinkOnly s t) (l : LaneId) : t.lane l = s.lane l := by rw [State.lane, h.lanes]; rfl
theorem zone (h : LinkOnly s t) (z : Fin 4) : t.zone z = s.zone z := by rw [State.zone, h.zones]; rfl

/-- A port that keeps its stream and its context. -/
theorem setPort (s : State) (p : Port) (v : PortState) (hs : v.stream = (s.port p).stream)
    (hc : v.ctx = (s.port p).ctx) : LinkOnly s (s.setPort p v) := by
  refine ⟨by cases p <;> rfl, fun q => ?_, fun q => ?_, by cases p <;> rfl⟩ <;>
  · rw [State.setPort_port]
    split <;> simp_all

theorem withPower (s : State) (v : PowerUnit) (h : v.geometrySweep = s.power.geometrySweep) :
    LinkOnly s (s.withPower v) := ⟨rfl, fun p => by simp, fun p => by simp, h⟩

theorem withTemp (s : State) (v : TempUnit) : LinkOnly s (s.withTemp v) :=
  ⟨rfl, fun p => by simp, fun p => by simp, rfl⟩

theorem mapPort (s : State) (p : Port) (f : PortState → PortState) (hs : (f (s.port p)).stream = (s.port p).stream)
    (hc : (f (s.port p)).ctx = (s.port p).ctx) : LinkOnly s (s.mapPort p f) := setPort s p _ hs hc

theorem raise (s : State) (p : Port) (f : Flag) : LinkOnly s (s.raise p f) := mapPort s p _ (by rfl) (by rfl)

theorem raiseBoth (s : State) (f : Flag) : LinkOnly s (s.raiseBoth f) := (raise s .a f).trans (raise _ .b f)

theorem setResult (s : State) (p : Port) (r : Result) : LinkOnly s (s.setResult p r) := by
  rw [State.setResult_eq]; exact setPort s p _ rfl rfl

theorem appendDone (s : State) (p : Port) (d : DoneRecord) : LinkOnly s (s.appendDone p d) := by
  rw [State.appendDone_eq]; exact setPort s p _ (by split <;> rfl) (by split <;> rfl)

theorem endResetWait (s : State) : LinkOnly s s.endResetWait := by
  unfold State.endResetWait
  split
  · exact withPower s _ (by rfl)
  · exact refl s

theorem noteReady (s : State) (p : Port) : LinkOnly s (s.noteReady p) := by
  unfold State.noteReady
  split
  · split
    · exact mapPort s p _ (by rfl) (by rfl)
    · exact refl s
  · exact refl s

theorem enterSleep (s : State) : LinkOnly s s.enterSleep := (withPower s _ (by rfl)).trans (withTemp _ _)

theorem judgePower (s : State) : LinkOnly s s.judgePower := by
  unfold State.judgePower
  split
  · split
    · split
      · exact enterSleep s
      · split
        · exact withPower s _ (by rfl)
        · exact refl s
    · exact withPower s _ (by rfl)
  · split
    · exact enterSleep s
    · exact refl s
  · exact refl s

theorem settle (s : State) : LinkOnly s s.settle :=
  (((endResetWait s).trans (noteReady _ .a)).trans (noteReady _ .b)).trans (judgePower _)

theorem goStale (s : State) : LinkOnly s s.goStale := by
  unfold State.goStale
  split
  · exact (withTemp s _).trans (raiseBoth _ _)
  · exact refl s

theorem wake (s : State) (p : Port) : LinkOnly s (s.wake p) := by
  unfold State.wake State.mapPorts
  exact (((((((withPower s _ (by rfl)).trans (mapPort _ .a _ (by rfl) (by rfl))).trans (mapPort _ .b _ (by rfl) (by rfl))).trans
    (mapPort _ p _ (by rfl) (by rfl))).trans (setResult _ p _)).trans (raise _ p _))).trans (goStale _)

theorem selectFalls (s : State) (p : Port) : LinkOnly s (s.selectFalls p) := by
  refine (mapPort s p (fun q => { q with dataOut := [], outCount := 0, outMark := 0 }) rfl rfl).trans ?_
  unfold State.selectFalls
  simp only
  split
  · exact mapPort _ p _ (by rfl) (by rfl)
  · exact wake _ p
  · exact (mapPort _ p _ (by rfl) (by rfl)).trans (withPower _ _ (by rfl))

theorem opened (s : State) (p : Port) : LinkOnly s (s.opened p) := by
  unfold State.opened
  split
  · exact (selectFalls s p).trans (settle _)
  · exact refl s

theorem closeTransaction (s : State) (p : Port) (n : Nat) : LinkOnly s (s.closeTransaction p n) :=
  mapPort s p _ (by rfl) (by rfl)

theorem clockZeros (s : State) (p : Port) (n : Nat) : LinkOnly s (s.clockZeros p n) := mapPort s p _ (by rfl) (by rfl)

theorem clockUntaken (s : State) (p : Port) : LinkOnly s (s.clockUntaken p) := by
  rcases s.clockUntaken_eq p with h | ⟨-, h⟩ | ⟨_, -, -, h⟩ <;> rw [h]
  · exact refl s
  · exact setPort s p _ rfl rfl
  · exact setPort s p _ rfl rfl

theorem closeDiscarded (s : State) (p : Port) (n : Nat) : LinkOnly s (s.closeDiscarded p n) :=
  (clockZeros s p n).trans (mapPort _ p _ (by rfl) (by rfl))

theorem refuseFrame (s : State) (p : Port) (fr : Frame) : LinkOnly s (s.refuseFrame p fr) := by
  unfold State.refuseFrame
  refine LinkOnly.trans ?_ (setResult _ p _)
  split
  · exact mapPort s p _ (by rfl) (by rfl)
  · exact refl s

theorem hold (s : State) (p : Port) (h : Held) : LinkOnly s (s.hold p h) := mapPort s p _ (by rfl) (by rfl)

theorem refuseUntaken (s : State) (p : Port) (n : Nat) : LinkOnly s (s.refuseUntaken p n) := by
  unfold State.refuseUntaken
  refine ((clockZeros s p n).trans (closeTransaction _ p 0)).trans ?_
  simp only
  split
  · exact hold _ p _
  · exact refuseFrame _ p _

theorem riseWithoutCode (s : State) (p : Port) : LinkOnly s (s.riseWithoutCode p) := by
  unfold State.riseWithoutCode
  split
  · exact refuseUntaken s p 0
  · exact closeDiscarded s p 0
  · exact refl s

theorem closeStream (s : State) (p : Port) : LinkOnly s (s.closeStream p) := mapPort s p _ (by rfl) (by rfl)

theorem endWrite (s : State) (p : Port) : LinkOnly s (s.endWrite p) := by
  unfold State.endWrite
  split
  · refine (closeStream s p).trans ?_
    simp only
    split
    · exact hold _ p _
    · exact setResult _ p _
  · exact riseWithoutCode s p

theorem endRead (s : State) (p : Port) : LinkOnly s (s.endRead p) := by
  unfold State.endRead
  split
  · exact (closeStream s p).trans (setResult _ p _)
  · exact riseWithoutCode s p

theorem sendResponseByte (s : State) (p : Port) : LinkOnly s (s.sendResponseByte p) := mapPort s p _ (by rfl) (by rfl)

theorem takeAhead (s : State) (p : Port) : LinkOnly s (s.takeAhead p) :=
  (sendResponseByte s p).trans (mapPort _ p _ (by rfl) (by rfl))

theorem discardPixelByte (s : State) (p : Port) : LinkOnly s (s.discardPixelByte p) :=
  (mapPort s p _ (by rfl) (by rfl)).trans (raise _ p _)

theorem ignorePixel (s : State) (p : Port) : LinkOnly s (s.ignorePixel p) :=
  (mapPort s p _ (by rfl) (by rfl)).trans (raise _ p _)

theorem leaveDoze (s : State) : LinkOnly s s.leaveDoze := by
  unfold State.leaveDoze
  split
  · exact withPower s _ (by rfl)
  · exact refl s

theorem answer (s : State) (p : Port) (data : List Byte) (own : PortState → PortState)
    (hs : (own (s.port p)).stream = (s.port p).stream) (hc : (own (s.port p)).ctx = (s.port p).ctx) :
    LinkOnly s (s.answer p data own) := by
  refine ((mapPort s p own hs hc).trans (setResult _ p .ok)).trans ?_
  exact mapPort _ p (fun q => { q with response := (s.port p).result.code :: data }) rfl rfl

/-- The transactions behind a held command change nothing but their port's result (R168). -/
theorem takeHeld (p : Port) (s : State) (h : Held) (hc : ∀ i, h ≠ .command i) : LinkOnly s (State.takeHeld p s h) := by
  rw [State.takeHeld_eq]
  cases h with
  | command i => exact absurd rfl (hc i)
  | writeEnd r => exact setPort s p _ rfl rfl
  | untaken => exact setPort s p _ rfl rfl

end LinkOnly

/-- The rise of a command's transaction is an event of the link, or the command's effect at a port that has just risen
with its bytes taken and no sweep running (R61, R169). -/
theorem State.transact_cases (s : State) (p : Port) (fr : Frame) (req : List Byte) (i : Instr) (e : State → State) :
    LinkOnly s (s.transact p fr req i e) ∨
    (((s.opened p).port p).txn = .opened true ∧ s.power.geometrySweep = false ∧ fr.fits req.length = true ∧
      s.transact p fr req i e = e ((s.opened p).closeTransaction p (req.length + 1))) := by
  have ho := LinkOnly.opened s p
  unfold State.transact
  simp only
  split
  · rename_i htxn
    have hu := ho.trans (LinkOnly.closeTransaction _ p (req.length + 1))
    split
    · exact .inl (hu.trans (LinkOnly.refuseFrame _ p fr))
    · rename_i hfit
      split
      · exact .inl ((hu.trans (LinkOnly.mapPort _ p _ (by rfl) (by rfl))).trans (LinkOnly.hold _ p _))
      · rename_i hsweep
        exact .inr ⟨htxn, by rw [← hu.sweep]; simpa using hsweep, by simpa using hfit, rfl⟩
  · exact .inl (ho.trans (LinkOnly.refuseUntaken _ p _))
  · exact .inl (ho.trans (LinkOnly.closeDiscarded _ p _))
  · exact .inl ho

/-- The state in which a command's effect is made differs from the one before in events of the link alone. -/
theorem LinkOnly.risen (s : State) (p : Port) (n : Nat) : LinkOnly s ((s.opened p).closeTransaction p n) :=
  (LinkOnly.opened s p).trans (LinkOnly.closeTransaction _ p n)

/-! ## Operations over lanes -/

/-- Nothing has changed but the lanes, their lists and engines, the queue, and the done queues, flags and results of the
ports. -/
structure LaneOnly (s t : State) : Prop where
  body : t = { s with
    portA := t.portA, portB := t.portB, queue := t.queue, lanes := t.lanes, surveyList := t.surveyList
    survey := t.survey, armingList := t.armingList, retireList := t.retireList, retire := t.retire }
  ports : ∀ p, t.port p =
    { s.port p with done := (t.port p).done, flags := (t.port p).flags, result := (t.port p).result }

namespace LaneOnly

variable {s t u : State}

theorem refl (s : State) : LaneOnly s s := ⟨rfl, fun _ => rfl⟩

theorem trans (h : LaneOnly s t) (k : LaneOnly t u) : LaneOnly s u := by
  refine ⟨?_, fun p => ?_⟩
  · rw [k.body, h.body]
  · rw [k.ports p, h.ports p]

theorem width (h : LaneOnly s t) : t.width = s.width := by rw [h.body]
theorem height (h : LaneOnly s t) : t.height = s.height := by rw [h.body]
theorem image (h : LaneOnly s t) : t.image = s.image := by rw [h.body]
theorem pixels (h : LaneOnly s t) : t.pixels = s.pixels := by rw [h.body]
theorem table (h : LaneOnly s t) : t.table = s.table := by rw [h.body]
theorem temp (h : LaneOnly s t) : t.temp = s.temp := by rw [h.body]
theorem zones (h : LaneOnly s t) : t.zones = s.zones := by rw [h.body]
theorem scan (h : LaneOnly s t) : t.scan = s.scan := by rw [h.body]
theorem power (h : LaneOnly s t) : t.power = s.power := by rw [h.body]
theorem zone (h : LaneOnly s t) (z : Fin 4) : t.zone z = s.zone z := by rw [State.zone, h.zones]; rfl
theorem stream (h : LaneOnly s t) (p : Port) : (t.port p).stream = (s.port p).stream := by rw [h.ports p]
theorem ctx (h : LaneOnly s t) (p : Port) : (t.port p).ctx = (s.port p).ctx := by rw [h.ports p]
theorem txn (h : LaneOnly s t) (p : Port) : (t.port p).txn = (s.port p).txn := by rw [h.ports p]
theorem consent (h : LaneOnly s t) (p : Port) : (t.port p).consent = (s.port p).consent := by rw [h.ports p]
theorem held (h : LaneOnly s t) (p : Port) : (t.port p).held = (s.port p).held := by rw [h.ports p]

theorem withLanes (s : State) (v : Vector Lane 15) : LaneOnly s (s.withLanes v) := ⟨rfl, fun p => by simp⟩
theorem withQueue (s : State) (v : List Request) : LaneOnly s (s.withQueue v) := ⟨rfl, fun p => by simp⟩
theorem withSurveyList (s : State) (v : List LaneId) : LaneOnly s (s.withSurveyList v) := ⟨rfl, fun p => by simp⟩
theorem withSurvey (s : State) (v : Option Survey) : LaneOnly s (s.withSurvey v) := ⟨rfl, fun p => by simp⟩
theorem withArmingList (s : State) (v : List LaneId) : LaneOnly s (s.withArmingList v) := ⟨rfl, fun p => by simp⟩
theorem withRetireList (s : State) (v : List LaneId) : LaneOnly s (s.withRetireList v) := ⟨rfl, fun p => by simp⟩
theorem withRetire (s : State) (v : Option RetireWalk) : LaneOnly s (s.withRetire v) := ⟨rfl, fun p => by simp⟩

theorem setLane (s : State) (l : LaneId) (v : Lane) : LaneOnly s (s.setLane l v) := withLanes s _

theorem mapLane (s : State) (l : LaneId) (f : Lane → Lane) : LaneOnly s (s.mapLane l f) := withLanes s _

theorem setPort (s : State) (p : Port) (d : List DoneRecord) (f : BitVec 12) (r : Result) :
    LaneOnly s (s.setPort p { s.port p with done := d, flags := f, result := r }) := by
  refine ⟨by cases p <;> rfl, fun q => ?_⟩
  rw [State.setPort_port]
  split
  · rename_i h; rw [h]
  · rfl

theorem setResult (s : State) (p : Port) (r : Result) : LaneOnly s (s.setResult p r) := by
  rw [State.setResult_eq]; exact setPort s p _ _ _

theorem raise (s : State) (p : Port) (f : Flag) : LaneOnly s (s.raise p f) := setPort s p _ _ _

theorem raiseBoth (s : State) (f : Flag) : LaneOnly s (s.raiseBoth f) := (raise s .a f).trans (raise _ .b f)

theorem appendDone (s : State) (p : Port) (d : DoneRecord) : LaneOnly s (s.appendDone p d) := by
  rw [State.appendDone_eq]
  split
  · exact setPort s p _ _ _
  · exact setPort s p _ _ _

theorem reportLane (s : State) (l : LaneId) (d : DoneRecord) : LaneOnly s (s.reportLane l d) := by
  unfold State.reportLane
  split
  · exact appendDone s _ d
  · exact refl s

theorem endPending (o : UpdateOutcome) (s : State) (l : LaneId) : LaneOnly s (State.endPending o s l) :=
  ((reportLane s l _).trans (setLane _ l _)).trans (withSurveyList _ _)

theorem closeSurvey (s : State) : LaneOnly s s.closeSurvey := by
  unfold State.closeSurvey
  split
  · exact (mapLane s _ _).trans (withSurvey _ _)
  · exact refl s

theorem joinRetire (k : RetireKind) (o : UpdateOutcome) (s : State) (l : LaneId) :
    LaneOnly s (State.joinRetire k o s l) := (mapLane s l _).trans (withRetireList _ _)

theorem startRetire (s : State) : LaneOnly s s.startRetire := by
  obtain ⟨w, h, -⟩ := s.startRetire_eq
  rw [h]; exact withRetire s w

theorem reconsider (s : State) : LaneOnly s s.reconsider := by
  obtain ⟨q, l, ls, h⟩ := s.reconsider_eq
  rw [h]; exact ((withQueue s q).trans (withLanes _ l)).trans (withSurveyList _ ls)

/-- An operation made for every element of a list. -/
theorem foldl {α : Type} (f : State → α → State) (hf : ∀ s a, LaneOnly s (f s a)) (ls : List α) (s : State) :
    LaneOnly s (ls.foldl f s) :=
  foldl_keeps (LaneOnly s) f (fun _ _ h => h.trans (hf _ _)) ls s (refl s)

theorem silence (mine : Port → Bool) (s : State) (l : LaneId) : LaneOnly s (State.silence mine s l) := by
  unfold State.silence
  split
  · exact mapLane s l _
  · exact refl s

theorem endLanes (s : State) (mine : Port → Bool) : LaneOnly s (s.endLanes mine) := by
  unfold State.endLanes
  refine LaneOnly.trans ?_ (startRetire _)
  refine LaneOnly.trans ?_ (foldl _ (fun s l => mapLane s l _) _ _)
  refine LaneOnly.trans ?_ (withArmingList _ _)
  refine LaneOnly.trans ?_ (foldl _ (joinRetire _ _) _ _)
  refine (foldl _ (silence mine) laneIds s).trans ?_
  split
  · exact foldl _ (endPending _) _ _
  · exact (foldl _ (endPending _) _ _).trans (closeSurvey _)

theorem faultRunning (s : State) : LaneOnly s s.faultRunning := foldl _ (joinRetire _ _) _ s

theorem haltLanes (s : State) : LaneOnly s s.haltLanes := by
  unfold State.haltLanes
  refine LaneOnly.trans ?_ (reconsider _)
  refine LaneOnly.trans ?_ (foldl _ (endPending _) _ _)
  exact ((closeSurvey s).trans (foldl _ (joinRetire _ _) _ _)).trans (withArmingList _ _)

theorem withdrawLane (s : State) (p : Port) (l : LaneId) : LaneOnly s (s.withdrawLane p l) := by
  unfold State.withdrawLane
  split
  · exact ((endPending _ s l).trans (reconsider _)).trans (setResult _ p _)
  · exact (((closeSurvey s).trans (joinRetire _ _ _ l)).trans (startRetire _)).trans (setResult _ p _)
  · exact (((withArmingList s _).trans (joinRetire _ _ _ l)).trans (startRetire _)).trans (setResult _ p _)
  · exact (mapLane s l _).trans (setResult _ p _)
  · exact setResult s p _
  · exact setResult s p _

theorem admitLane (s : State) (ls : List LaneId) : LaneOnly s (s.admitLane ls) :=
  (foldl _ (fun s l => mapLane s l _) ls s).trans (withArmingList _ _)

theorem advanceLane (s : State) (l : LaneId) : LaneOnly s (s.advanceLane l) := by
  unfold State.advanceLane
  simp only
  split
  · exact (mapLane s l _).trans (joinRetire _ _ _ l)
  · split
    · exact (mapLane s l _).trans (joinRetire _ _ _ l)
    · exact mapLane s l _

theorem advance (s : State) : LaneOnly s s.advance := foldl _ advanceLane _ s

theorem sweepQueue (s : State) : LaneOnly s s.sweepQueue :=
  (withQueue s _).trans (foldl _ (fun t _ => appendDone t _ _) _ _)

theorem enterQueue (s : State) (q : Request) : LaneOnly s (s.enterQueue q) := by
  unfold State.enterQueue
  split
  · exact appendDone s _ _
  · exact (withQueue s _).trans (reconsider _)

end LaneOnly

end Sys2Proof.Machine
end

section
/-! What no command of the link can change by its effect (`EffectFrame`): the two stores, the state of the Power
Controller, and the transactions that a port holds but by dropping them. Then the invariant of the stores: which events
write them, and that what they write is legal.
-/

namespace Sys2Proof.Machine

/-! ## The parts of the two resets -/

/-- The table once a load of an owner that is reset has ended ABORTED (R38). -/
def TableUnit.aborted (u : TableUnit) (mine : Port → Bool) : TableUnit :=
  match u.phase with
  | .loading owner _ => if mine owner then { u with phase := .invalid .aborted, memory := [] } else u
  | _ => u

/-- A zone of `mine` is freed, any other is left. -/
def State.freeZone (mine : Port → Bool) (s : State) (z : Fin 4) : State :=
  if (s.zone z).any fun zone => mine zone.owner then s.setZone z none else s

theorem State.freeZone_zone (mine : Port → Bool) (s : State) (k z : Fin 4) :
    (State.freeZone mine s k).zone z =
      if z = k ∧ (s.zone k).any (fun zone => mine zone.owner) = true then none else s.zone z := by
  unfold State.freeZone
  split <;> by_cases hz : z = k <;> simp_all

/-- The zones that are freed are those of `mine` (R93). -/
theorem State.freeZones_eq (s : State) (mine : Port → Bool) : ∃ v : Vector (Option Zone) 4,
    s.freeZones mine = s.withZones v ∧
    ∀ z, (s.withZones v).zone z = if (s.zone z).any fun zone => mine zone.owner then none else s.zone z := by
  have fold (ks : List (Fin 4)) : ∀ t : State, ∃ v, ks.foldl (State.freeZone mine) t = t.withZones v ∧
      ∀ z, (t.withZones v).zone z =
        if z ∈ ks ∧ (t.zone z).any (fun zone => mine zone.owner) = true then none else t.zone z := by
    induction ks with
    | nil => exact fun t => ⟨t.zones, rfl, fun z => by simp [State.zone, State.withZones]⟩
    | cons k ks ih =>
      intro t
      obtain ⟨v, hv, hz⟩ := ih (State.freeZone mine t k)
      have hw : (State.freeZone mine t k).withZones v = t.withZones v := by
        unfold State.freeZone; split <;> rfl
      rw [hw] at hv hz
      refine ⟨v, hv, fun z => ?_⟩
      rw [hz z, State.freeZone_zone]
      by_cases hk : z = k
      · subst hk
        cases h : (t.zone z).any fun zone => mine zone.owner <;> simp_all
      · simp [hk]
  obtain ⟨v, hv, hz⟩ := fold zoneIds s
  exact ⟨v, hv, fun z => by rw [hz z]; simp⟩

theorem State.withTable_of_eq (s : State) (v : TableUnit) (h : s.table = v) : s.withTable v = s := by
  subst h; rfl

/-- What both resets end of the ports of `mine`: lanes, queue and zones (R93, R114, R127). -/
def State.endOwned (s : State) (mine : Port → Bool) (q : List Request) : State :=
  ((s.endLanes mine).withQueue q).freeZones mine

/-- What is ended leaves the rest of the state as it was. -/
theorem State.endOwned_eq (s : State) (mine : Port → Bool) (q : List Request) : ∃ v : Vector (Option Zone) 4,
    s.endOwned mine q = ((s.endLanes mine).withQueue q).withZones v ∧
    ∀ z, (s.endOwned mine q).zone z = if (s.zone z).any fun zone => mine zone.owner then none else s.zone z := by
  obtain ⟨v, hv, hz⟩ := ((s.endLanes mine).withQueue q).freeZones_eq mine
  refine ⟨v, hv, fun z => ?_⟩
  rw [State.endOwned, hv, hz z, State.withQueue_zone, (LaneOnly.endLanes s mine).zone]

/-- PORT_RESET's effect, part by part (R179). -/
theorem effectPortReset_eq (p : Port) (req : List Byte) (s : State) :
    effectPortReset p req s =
      (((s.endOwned (fun q => decide (q = p)) ((s.endLanes fun q => decide (q = p)).queue.filter
        fun q => !decide (q.port = p))).withTable (s.table.aborted fun q => decide (q = p))).mapPort p
          fun q => q.cleared s.width s.height).reconsider := by
  have hl := LaneOnly.endLanes s fun q => decide (q = p)
  obtain ⟨v, hv, -⟩ := s.endOwned_eq (fun q => decide (q = p)) ((s.endLanes fun q => decide (q = p)).queue.filter
    fun q => !decide (q.port = p))
  rw [hv]
  unfold State.endOwned at hv
  unfold effectPortReset
  simp only [hv]
  cases hp : s.table.phase with
  | loading owner validating =>
    by_cases ho : owner = p <;>
      simp [TableUnit.aborted, State.abortLoad, State.withTable_of_eq, hp, ho, hl.table, hl.width, hl.height]
  | _ => simp [TableUnit.aborted, State.withTable_of_eq, hp, hl.table, hl.width, hl.height]

/-- The settings, the temperature, a load under way, the supply, the scan, the rotation and the wait after a PART_RESET
(R38, R50, R91, R106, R147, R160, R167, R180). -/
def State.resetSettings (s : State) : State :=
  (((((((s.withZoneDuration Config.defaultZone).withLimits Config.defaultResidueLimit Config.defaultWearLimit).withTemp
    TempUnit.partReset).withTable (s.table.aborted fun _ => true)).withSupply
    (s.supply.partReset s.scan.scanning)).withScan s.scan.partReset).withLastGrant .survey).withPower
    { s.power with dozeDelay := Config.defaultDoze, resetWait := true }

/-- PART_RESET's effect, part by part (R180). -/
theorem effectPartReset_eq (p : Port) (req : List Byte) (s : State) :
    effectPartReset p req s =
      ((((s.endOwned (fun _ => true) []).resetSettings.mapPorts fun q => q.cleared s.width s.height).mapPort
        (otherPort p) fun q => { q with txn := q.txn.abandoned }).raiseBoth .partReset).reconsider := by
  have hl := LaneOnly.endLanes s fun _ => true
  obtain ⟨v, hv, -⟩ := s.endOwned_eq (fun _ => true) []
  rw [hv]
  unfold State.endOwned at hv
  unfold effectPartReset State.resetSettings
  simp only [hv]
  cases hp : s.table.phase with
  | loading owner validating =>
    simp [TableUnit.aborted, State.abortLoad, State.mapPorts, hp, hl.table, hl.width, hl.height]
  | _ => simp [TableUnit.aborted, State.withTable_of_eq, State.mapPorts, hp, hl.table, hl.width, hl.height]

/-! ## What every effect leaves -/

/-- The stores and the power state stand, and a port's held transactions stand or are dropped. -/
structure EffectFrame (s t : State) : Prop where
  image : t.image = s.image
  pixels : t.pixels = s.pixels
  power : t.power.state = s.power.state
  held : ∀ p, (t.port p).held = (s.port p).held ∨ (t.port p).held = []

namespace EffectFrame

variable {s t u : State}

theorem refl (s : State) : EffectFrame s s := ⟨rfl, rfl, rfl, fun _ => .inl rfl⟩

theorem trans (h : EffectFrame s t) (k : EffectFrame t u) : EffectFrame s u := by
  refine ⟨k.image.trans h.image, k.pixels.trans h.pixels, k.power.trans h.power, fun p => ?_⟩
  rcases k.held p with k1 | k1
  · rw [k1]; exact h.held p
  · exact .inr k1

theorem ofLaneOnly (h : LaneOnly s t) : EffectFrame s t :=
  ⟨h.image, h.pixels, by rw [h.power], fun p => .inl (h.held p)⟩

theorem setResult (s : State) (p : Port) (r : Result) : EffectFrame s (s.setResult p r) :=
  ofLaneOnly (LaneOnly.setResult s p r)

theorem setPort (s : State) (p : Port) (v : PortState) (h : v.held = (s.port p).held ∨ v.held = []) :
    EffectFrame s (s.setPort p v) := by
  refine ⟨by simp, by simp, by simp, fun q => ?_⟩
  rw [State.setPort_port]
  split
  · rename_i hq; rw [hq]; exact h
  · exact .inl rfl

theorem mapPort (s : State) (p : Port) (f : PortState → PortState)
    (h : (f (s.port p)).held = (s.port p).held ∨ (f (s.port p)).held = []) : EffectFrame s (s.mapPort p f) :=
  setPort s p _ h

theorem pushEntry (s : State) (p : Port) (e : Entry) : EffectFrame s (s.pushEntry p e) := mapPort s p _ (.inl rfl)

theorem mapContext (s : State) (p : Port) (f : PortContext → PortContext) : EffectFrame s (s.mapContext p f) :=
  mapPort s p _ (.inl rfl)

theorem withTable (s : State) (v : TableUnit) : EffectFrame s (s.withTable v) := ⟨rfl, rfl, rfl, fun p => by simp⟩
theorem withTemp (s : State) (v : TempUnit) : EffectFrame s (s.withTemp v) := ⟨rfl, rfl, rfl, fun p => by simp⟩
theorem withSupply (s : State) (v : Supply) : EffectFrame s (s.withSupply v) := ⟨rfl, rfl, rfl, fun p => by simp⟩
theorem withScan (s : State) (v : Scanner) : EffectFrame s (s.withScan v) := ⟨rfl, rfl, rfl, fun p => by simp⟩
theorem withLimits (s : State) (r w : Nat) : EffectFrame s (s.withLimits r w) := ⟨rfl, rfl, rfl, fun p => by simp⟩
theorem withGeometry (s : State) (w h : Nat) : EffectFrame s (s.withGeometry w h) :=
  ⟨rfl, rfl, rfl, fun p => by simp⟩
theorem withZoneDuration (s : State) (v : Nat) : EffectFrame s (s.withZoneDuration v) :=
  ⟨rfl, rfl, rfl, fun p => by simp⟩
theorem withLastGrant (s : State) (v : Requester) : EffectFrame s (s.withLastGrant v) :=
  ⟨rfl, rfl, rfl, fun p => by simp⟩
theorem setZone (s : State) (z : Fin 4) (v : Option Zone) : EffectFrame s (s.setZone z v) :=
  ⟨rfl, rfl, rfl, fun p => by simp⟩

theorem withPower (s : State) (v : PowerUnit) (h : v.state = s.power.state) : EffectFrame s (s.withPower v) :=
  ⟨rfl, rfl, h, fun p => by simp⟩

theorem freeZones (s : State) (mine : Port → Bool) : EffectFrame s (s.freeZones mine) := by
  refine foldl_keeps (EffectFrame s) _ (fun t z h => h.trans ?_) zoneIds s (refl s)
  split
  · exact setZone t z none
  · exact refl t

theorem abortLoad (s : State) : EffectFrame s s.abortLoad := withTable s _

theorem answer (s : State) (p : Port) (data : List Byte) (own : PortState → PortState)
    (h : (own (s.port p)).held = (s.port p).held) : EffectFrame s (s.answer p data own) := by
  refine ((mapPort s p own (.inl h)).trans (setResult _ p .ok)).trans ?_
  exact mapPort _ p (fun q => { q with response := (s.port p).result.code :: data }) (.inl rfl)

theorem endOwned (s : State) (mine : Port → Bool) (q : List Request) : EffectFrame s (s.endOwned mine q) :=
  ((ofLaneOnly (LaneOnly.endLanes s mine)).trans (ofLaneOnly (LaneOnly.withQueue _ q))).trans (freeZones _ mine)

theorem resetSettings (s : State) : EffectFrame s s.resetSettings :=
  ((((((((withZoneDuration s _).trans (withLimits _ _ _)).trans (withTemp _ _)).trans (withTable _ _)).trans
    (withSupply _ _)).trans (withScan _ _)).trans (withLastGrant _ _)).trans (withPower _ _ (by rfl)))

theorem portReset (p : Port) (req : List Byte) (s : State) : EffectFrame s (effectPortReset p req s) := by
  rw [effectPortReset_eq]
  exact (((endOwned s _ _).trans (withTable _ _)).trans (mapPort _ p _ (.inr rfl))).trans (ofLaneOnly (LaneOnly.reconsider _))

theorem partReset (p : Port) (req : List Byte) (s : State) : EffectFrame s (effectPartReset p req s) := by
  rw [effectPartReset_eq]
  refine EffectFrame.trans ?_ (ofLaneOnly (LaneOnly.reconsider _))
  refine EffectFrame.trans ?_ (ofLaneOnly (LaneOnly.raiseBoth _ .partReset))
  refine EffectFrame.trans ?_ (mapPort _ (otherPort p) _ (.inl rfl))
  exact ((endOwned s _ _).trans (resetSettings _)).trans ((mapPort _ .a _ (.inr rfl)).trans (mapPort _ .b _ (.inr rfl)))

end EffectFrame

/-- The effect of a withdrawal is within the lanes and queues, and its port's stream (R84). -/
theorem effectWithdraw_frame (p : Port) (req : List Byte) (s : State) : EffectFrame s (effectWithdraw p req s) := by
  unfold effectWithdraw
  simp only
  split
  · exact .setResult s p _
  · split
    · exact ((EffectFrame.mapPort s p _ (.inl rfl)).trans (.ofLaneOnly (LaneOnly.appendDone _ p _))).trans
        (.setResult _ p _)
    · split
      · exact .ofLaneOnly ((((LaneOnly.withQueue s _).trans (LaneOnly.appendDone _ p _)).trans
          (LaneOnly.reconsider _)).trans (LaneOnly.setResult _ p _))
      · split
        · exact .ofLaneOnly (LaneOnly.withdrawLane s p _)
        · exact .setResult s p _

/-- No effect of a command writes a store, moves the power state or adds to what a port holds. -/
theorem effectOf_frame (i : Instr) (s : State) : EffectFrame s (effectOf i s) := by
  cases i with
  | setWindow p r =>
    simp only [effectOf, effectSetWindow]
    split
    · exact (EffectFrame.mapContext s p _).trans (.setResult _ p _)
    · exact .setResult s p _
  | setFormat p r =>
    simp only [effectOf, effectSetFormat]
    split
    · exact (EffectFrame.mapContext s p _).trans (.setResult _ p _)
    · exact .setResult s p _
  | setOrientation p r =>
    simp only [effectOf, effectSetOrientation]
    split
    · exact (EffectFrame.mapContext s p _).trans (.setResult _ p _)
    · exact .setResult s p _
  | fillWindow p r =>
    simp only [effectOf, effectFillWindow]
    split
    · split
      · exact (EffectFrame.pushEntry s p _).trans (.setResult _ p _)
      · exact .setResult s p _
    · exact .setResult s p _
  | submitUpdate p r =>
    simp only [effectOf, effectSubmitUpdate]
    split
    · exact .setResult s p _
    · split
      · exact .setResult s p _
      · split
        · exact .setResult s p _
        · split
          · exact .setResult s p _
          · exact (EffectFrame.pushEntry s p _).trans (.setResult _ p _)
  | withdraw p r => exact effectWithdraw_frame p r s
  | reserveZone p r =>
    simp only [effectOf, effectReserveZone]
    split
    · exact .setResult s p _
    · split
      · exact .setResult s p _
      · split
        · exact .setResult s p _
        · exact (EffectFrame.setZone s _ _).trans (.setResult _ p _)
  | releaseZone p r =>
    simp only [effectOf, effectReleaseZone]
    split
    · exact .setResult s p _
    · split
      · exact .setResult s p _
      · split
        · exact ((EffectFrame.setZone s _ _).trans (.ofLaneOnly (LaneOnly.reconsider _))).trans (.setResult _ p _)
        · exact .setResult s p _
  | reportTemperature p r => exact (EffectFrame.withTemp s _).trans (.setResult _ p _)
  | tableBegin p r =>
    have start (t : State) := (EffectFrame.withTable t
      { phase := .loading p false, memory := [], received := 0, table := none }).trans (.setResult _ p .ok)
    simp only [effectOf, effectTableBegin]
    split
    · exact .setResult s p _
    · split
      · split
        · exact start s
        · exact .setResult s p _
      · exact ((EffectFrame.withTemp s _).trans (.ofLaneOnly (LaneOnly.raiseBoth _ _))).trans (start _)
      · exact start s
  | tableData p r =>
    simp only [effectOf, effectTableData]
    split
    · split
      · split
        · exact (EffectFrame.withTable s _).trans (.setResult _ p _)
        · exact (EffectFrame.withTable s _).trans (.setResult _ p _)
      · exact .setResult s p _
    · exact .setResult s p _
  | tableEnd p r =>
    simp only [effectOf, effectTableEnd]
    split
    · split
      · exact (EffectFrame.withTable s _).trans (.setResult _ p _)
      · exact .setResult s p _
    · exact .setResult s p _
  | tableAbort p r =>
    simp only [effectOf, effectTableAbort]
    split
    · refine EffectFrame.trans ?_ (.setResult _ p _)
      split
      · exact (EffectFrame.abortLoad s).trans (.setResult _ _ _)
      · exact .abortLoad s
    · exact .setResult s p _
  | getTableInfo p r => exact .answer s p _ id rfl
  | setGeometry p r =>
    simp only [effectOf, effectSetGeometry]
    split
    · exact .setResult s p _
    · split
      · exact .setResult s p _
      · exact (((EffectFrame.withGeometry s _ _).trans (.withPower _ _ (by rfl))).trans (.withScan _ _)).trans
          (.setResult _ p _)
  | setLimits p r => exact ((EffectFrame.withLimits s _ _).trans (.withTemp _ _)).trans (.setResult _ p _)
  | setTimers p r =>
    exact ((((EffectFrame.withSupply s _).trans (.withPower _ _ (by rfl))).trans (.withTemp _ _)).trans
      (.withZoneDuration _ _)).trans (.setResult _ p _)
  | setFrameMark p r => exact (EffectFrame.withScan s _).trans (.setResult _ p _)
  | getEvents p r => exact .answer s p _ _ rfl
  | setEventEnable p r =>
    simp only [effectOf, effectSetEventEnable]
    split
    · exact (EffectFrame.mapPort s p _ (.inl rfl)).trans (.setResult _ p _)
    · exact .setResult s p _
  | getDone p r =>
    simp only [effectOf, effectGetDone]
    split
    · exact .answer s p _ _ rfl
    · exact .answer s p _ id rfl
  | getResult p r => exact .answer s p _ id rfl
  | getStatus p r => exact .answer s p _ id rfl
  | getScan p r => exact .answer s p _ id rfl
  | getPixel p r =>
    simp only [effectOf, effectGetPixel]
    split
    · exact .answer s p _ id rfl
    · exact (EffectFrame.mapPort s p _ (.inl rfl)).trans (.setResult _ p _)
  | getId p r => exact .answer s p _ id rfl
  | sleep p r =>
    simp only [effectOf, effectSleep]
    exact (EffectFrame.mapPort s p _ (.inl rfl)).trans (.setResult _ p _)
  | portReset p r => exact .portReset p r s
  | partReset p r => exact .partReset p r s
  | _ => exact .refl s

end Sys2Proof.Machine
end

section
/-! The events of the link and the timers, by name, and the invariant of the stores (R2, R3, R8 to R10): which events write
a store, and that what they write is in canonical form and legal.
-/

namespace Sys2Proof.Machine

/-! ## Answers -/

/-- The command answers a next state, of which `P` holds. -/
def Answers (o : Host.Outcome State Fault Refusal) (P : State → Prop) : Prop := ∃ t, o = .next t ∧ P t

theorem Answers.next {P : State → Prop} {t : State} (h : P t) : Answers (.next t) P := ⟨t, rfl, h⟩

theorem Answers.imp {P Q : State → Prop} {o : Host.Outcome State Fault Refusal} (h : Answers o P)
    (hpq : ∀ t, P t → Q t) : Answers o Q := by
  obtain ⟨t, ht, hp⟩ := h
  exact ⟨t, ht, hpq t hp⟩

/-- What the answer satisfies, the state that was answered satisfies. -/
theorem Answers.elim {P : State → Prop} {o : Host.Outcome State Fault Refusal} {t : State} (h : Answers o P)
    (ht : o = .next t) : P t := by
  obtain ⟨u, hu, hp⟩ := h
  rw [ht] at hu
  cases hu
  exact hp

/-! ## Events of the link and of the supply -/

/-- The events that move nothing but transactions, results, flags, the Power Controller and the Temperature Unit. -/
def isLinkEvent : Instr → Bool
  | .selectFall _ | .wakingEnd | .unknownCommand _ _ | .writePixels _ .rise | .writeContinue _ _ | .readPixels _ _
  | .pixelByteDiscarded _ | .readbackByte _ | .staleTimerExpiry | .dozeTimerExpiry | .resetNRise
  | .discardedTransactionRise _ => true
  | _ => false

/-- The code of a streaming command that leaves stream and context (R63, R66). -/
theorem LinkOnly.takeCode (s : State) (p : Port) (f : PortState → PortState)
    (hs : ∀ q, (f q).stream = q.stream) (hc : ∀ q, (f q).ctx = q.ctx) : LinkOnly s (s.takeCode p f) := by
  have ho := LinkOnly.opened s p
  unfold State.takeCode
  simp only
  split
  · split
    · exact ((ho.trans (sendResponseByte _ p)).trans (mapPort _ p f (hs _) (hc _))).trans (settle _)
    · exact ho.trans (clockUntaken _ p)
  · exact ho.trans (clockUntaken _ p)

theorem LinkOnly.unknownCommand (s : State) (p : Port) (taken : List Byte) :
    Answers (execUnknownCommand p taken s) (LinkOnly s) := by
  have ho := LinkOnly.opened s p
  unfold execUnknownCommand
  split
  · refine ⟨_, rfl, ?_⟩
    split
    · split
      · exact ((ho.trans (closeTransaction _ p _)).trans (refuseFrame _ p _)).trans (settle _)
      · exact (ho.trans (refuseUntaken _ p _)).trans (settle _)
    · exact (ho.trans (closeDiscarded _ p _)).trans (settle _)
    · exact ho
  · exact ⟨s, rfl, refl s⟩

theorem LinkOnly.pixelByteDiscarded (s : State) (p : Port) :
    Answers (execPixelByteDiscarded p s) (LinkOnly s) := by
  unfold execPixelByteDiscarded
  split
  · refine ⟨_, rfl, ?_⟩
    split
    · exact refl s
    · exact (discardPixelByte s p).trans (settle _)
  · exact ⟨_, rfl, clockUntaken s p⟩

theorem LinkOnly.readbackByte (s : State) (p : Port) : Answers (execReadbackByte p s) (LinkOnly s) := by
  unfold execReadbackByte
  split
  · rename_i r _
    split
    · refine ⟨_, rfl, ?_⟩
      have hm := mapPort s p (fun q => { q with dataOut := q.dataOut ++ [r.clock.1], txn := .reading r.clock.2 })
        rfl rfl
      split
      · exact (hm.trans (raise _ p _)).trans (settle _)
      · exact hm.trans (settle _)
    · exact ⟨_, rfl, clockZeros s p 1⟩
  · refine ⟨_, rfl, ?_⟩
    split
    · exact takeAhead s p
    · exact clockUntaken s p
  · exact ⟨_, rfl, clockUntaken s p⟩

/-- An event of the link changes no more than its name says. -/
theorem exec_linkEvent (i : Instr) (s : State) (h : isLinkEvent i = true) :
    Answers (exec i s) (LinkOnly s) := by
  cases i with
  | selectFall p =>
    refine ⟨_, rfl, ?_⟩
    split
    · exact (LinkOnly.selectFalls s p).trans (.settle _)
    · exact .refl s
  | wakingEnd =>
    simp only [exec, execWakingEnd]
    split
    · exact ⟨_, rfl, (LinkOnly.withPower s _ (by rfl)).trans (.settle _)⟩
    · exact ⟨_, rfl, .refl s⟩
  | unknownCommand p taken => exact LinkOnly.unknownCommand s p taken
  | writePixels p ph =>
    cases ph with
    | code => exact absurd h Bool.false_ne_true
    | rise => exact ⟨_, rfl, (LinkOnly.endWrite s p).trans (.settle _)⟩
  | writeContinue p ph =>
    cases ph with
    | code => exact ⟨_, rfl, LinkOnly.takeCode s p _ (fun _ => rfl) (fun _ => rfl)⟩
    | rise => exact ⟨_, rfl, (LinkOnly.endWrite s p).trans (.settle _)⟩
  | readPixels p ph =>
    cases ph with
    | code => exact ⟨_, rfl, LinkOnly.takeCode s p _ (fun _ => rfl) (fun _ => rfl)⟩
    | rise => exact ⟨_, rfl, (LinkOnly.endRead s p).trans (.settle _)⟩
  | pixelByteDiscarded p => exact LinkOnly.pixelByteDiscarded s p
  | readbackByte p => exact LinkOnly.readbackByte s p
  | staleTimerExpiry =>
    simp only [exec, execStaleTimerExpiry]
    split
    · exact ⟨_, rfl, ((LinkOnly.leaveDoze s).trans (.goStale _)).trans (.settle _)⟩
    · exact ⟨_, rfl, .refl s⟩
  | dozeTimerExpiry =>
    simp only [exec, execDozeTimerExpiry]
    split
    · exact ⟨_, rfl, (LinkOnly.withPower s _ (by rfl)).trans (.settle _)⟩
    · exact ⟨_, rfl, .refl s⟩
  | resetNRise =>
    refine ⟨_, rfl, ?_⟩
    split
    · exact .withPower s _ rfl
    · exact .refl s
  | discardedTransactionRise p =>
    simp only [exec, execDiscardedTransactionRise]
    split
    · exact ⟨_, rfl, (LinkOnly.closeDiscarded s p 0).trans (.settle _)⟩
    · exact ⟨_, rfl, .refl s⟩
  | _ => exact absurd h Bool.false_ne_true

/-- The events that move the Supply Sequencer alone. -/
def isSupplyEvent : Instr → Bool
  | .railGoodAsserted | .parkTimerExpiry | .fallTimerExpiry => true
  | _ => false

theorem State.raiseOnDemand_eq (s : State) : ∃ v, s.raiseOnDemand = s.withSupply v := by
  unfold State.raiseOnDemand
  split
  · exact ⟨_, rfl⟩
  · exact ⟨s.supply, rfl⟩

theorem exec_supplyEvent (i : Instr) (s : State) (h : isSupplyEvent i = true) :
    ∃ v, Answers (exec i s) (LinkOnly (s.withSupply v)) := by
  cases i with
  | railGoodAsserted => exact ⟨_, _, rfl, .settle _⟩
  | parkTimerExpiry =>
    simp only [exec, execParkTimerExpiry]
    split
    · exact ⟨_, _, rfl, .settle _⟩
    · exact ⟨s.supply, _, rfl, .refl s⟩
  | fallTimerExpiry =>
    simp only [exec, execFallTimerExpiry]
    split
    · split
      · obtain ⟨v, hv⟩ := (s.withSupply { s.supply with fallTimer := none, state := .off }).raiseOnDemand_eq
        exact ⟨v, _, rfl, by rw [hv]; exact .settle _⟩
      · obtain ⟨v, hv⟩ := (s.withSupply { s.supply with fallTimer := none, state := .off }).raiseOnDemand_eq
        exact ⟨v, _, rfl, by rw [hv]; exact .settle _⟩
      · exact ⟨_, _, rfl, .settle _⟩
    · exact ⟨s.supply, _, rfl, .refl s⟩
  | _ => exact absurd h Bool.false_ne_true

theorem EffectFrame.raiseOnDemand (s : State) : EffectFrame s s.raiseOnDemand := by
  obtain ⟨v, h⟩ := s.raiseOnDemand_eq
  rw [h]; exact withSupply s v

theorem EffectFrame.endScan (s : State) : EffectFrame s s.endScan := (withScan s _).trans (withSupply _ _)

/-! ## Writes of the stores -/

/-- What a write lists was listed before or is what was written. -/
theorem Store.mem_write {α : Type} [DecidableEq α] (d : α) (m : Store α) (a : Nat) (v : α) (c : Nat × α)
    (h : c ∈ Store.write d m a v) : c ∈ m ∨ c = (a, v) := by
  induction m with
  | nil =>
    unfold Store.write at h
    split at h <;> simp_all
  | cons e m ih =>
    unfold Store.write at h
    split at h
    · split at h <;> simp_all
      tauto
    · split at h
      · split at h <;> simp_all
        tauto
      · rcases List.mem_cons.1 h with h | h
        · exact .inl (by simp [h])
        · exact (ih h).imp (List.mem_cons_of_mem _) id

/-- A read finds a listed cell, or what an unlisted one reads as. -/
theorem Store.read_eq_or_mem {α : Type} (d : α) (m : Store α) (a : Nat) :
    Store.read d m a = d ∨ (a, Store.read d m a) ∈ m := by
  induction m with
  | nil => exact .inl rfl
  | cons e m ih =>
    unfold Store.read
    split
    · rename_i h; subst h; exact .inr (by simp)
    · exact ih.imp id (List.mem_cons_of_mem _)

theorem PixelRecord.swept_legal : PixelRecord.swept.Legal := ⟨by decide, by decide, fun _ => ⟨rfl, rfl⟩⟩

namespace StoresSound

variable {s t : State}

theorem congr (h : StoresSound s) (hi : t.image = s.image) (hp : t.pixels = s.pixels) : StoresSound t := by
  refine ⟨?_, by rw [hp]; exact h.records⟩
  have hf := h.form
  rwa [Memory.wf, ← hi, ← hp] at hf

theorem ofLink (h : StoresSound s) (l : LinkOnly s t) : StoresSound t := h.congr l.image l.pixels

theorem ofLane (h : StoresSound s) (l : LaneOnly s t) : StoresSound t := h.congr l.image l.pixels

theorem ofEffect (h : StoresSound s) (l : EffectFrame s t) : StoresSound t := h.congr l.image l.pixels

/-- Every record is legal, listed or not (R3, R10). -/
theorem pixel_legal (h : StoresSound s) (x : Pos) : (s.pixel x).Legal := by
  rcases Store.read_eq_or_mem PixelRecord.swept s.pixels (address x) with hr | hr
  · rw [State.pixel, hr]; exact PixelRecord.swept_legal
  · exact h.records _ hr

theorem swept (hi : s.image = []) (hp : s.pixels = []) : StoresSound s :=
  ⟨by rw [Memory.wf, hi, hp]; rfl, by simp [hp]⟩

theorem setLevel (h : StoresSound s) (x : Pos) (v : Level) : StoresSound (s.setLevel x v) :=
  ⟨Memory.wf_setLevel s x v h.form, h.records⟩

theorem setPixel (h : StoresSound s) (x : Pos) (r : PixelRecord) (hr : r.Legal) : StoresSound (s.setPixel x r) := by
  refine ⟨Memory.wf_setPixel s x r h.form, fun c hc => ?_⟩
  rcases Store.mem_write _ _ _ _ c hc with hm | rfl
  · exact h.records c hm
  · exact hr

/-- The frame walk moves residues within their range and touches no unclaimed record (R8, R10). -/
theorem drive (h : StoresSound s) (visits : Pos → Bool) : StoresSound (s.drive visits) := by
  refine ⟨Memory.wf_drive s visits h, fun c hc => ?_⟩
  obtain ⟨lanes, hd, -⟩ := s.drive_eq visits
  rw [hd] at hc
  simp only [State.withPixels_pixels, List.mem_map] at hc
  obtain ⟨e, he, rfl⟩ := hc
  have hl := h.records e he
  simp only
  split
  · exact ⟨stepResidue_range _ _ hl.residue, hl.wear, hl.free⟩
  · exact hl

/-- A claim changes neither residue nor wear (R104). -/
theorem visitRecord (h : StoresSound s) (w : Survey) (x : Pos) (v : Level) : StoresSound (s.visitRecord w x v) := by
  unfold State.visitRecord
  simp only
  split
  · exact h.ofLane (.mapLane s _ _)
  · exact h.ofLane (.mapLane s _ _)
  · exact h.ofLane (.mapLane s _ _)
  · exact h
  · exact (h.ofLane (.mapLane s _ _)).setPixel x _
      ⟨(h.pixel_legal x).residue, (h.pixel_legal x).wear, fun hn => by simp [PixelRecord.claimedBy] at hn⟩

theorem finishVisit (h : StoresSound s) (w : Survey) (x : Pos) (v : Level) : StoresSound (s.finishVisit w x v) :=
  (h.visitRecord w x v).ofLane (.withSurvey _ _)

/-- The writeback releases the record, with its wear in range (R9, R11). -/
theorem retired_legal (r : PixelRecord) (b : Writeback) (clearing : Bool) (cost : Nat) (h : r.Legal) :
    (r.retired b clearing cost).Legal := by
  refine ⟨h.residue, ?_, fun _ => ⟨rfl, rfl⟩⟩
  have hw := h.wear
  cases b
  · simp only [PixelRecord.retired, wearAfter, Config.wearBound]
    split
    · exact Nat.zero_le _
    · exact Nat.min_le_left _ _
  · exact hw
  · exact hw

theorem trip (h : StoresSound s) (cause : TripCause) : StoresSound (s.trip cause) := by
  refine StoresSound.ofLane ?_ (.startRetire _)
  have hf : StoresSound (s.withSupply (s.supply.trip cause)).faultRunning :=
    (h.ofEffect (.withSupply s _)).ofLane (.faultRunning _)
  have hb : StoresSound (((s.withSupply (s.supply.trip cause)).faultRunning.withScan
      (s.withSupply (s.supply.trip cause)).faultRunning.scan.toIdle).raiseBoth .supplyFault) :=
    (hf.ofEffect (.withScan _ _)).ofLane (.raiseBoth _ _)
  split
  · exact (hb.ofLane (.raiseBoth _ .halted)).ofLane (.haltLanes _)
  · exact hb

theorem takeHeld (h : StoresSound s) (p : Port) (x : Held) : StoresSound (State.takeHeld p s x) := by
  cases x with
  | command i => exact h.ofEffect (effectOf_frame i s)
  | writeEnd r => exact h.ofLink (.takeHeld p s _ (by simp))
  | untaken => exact h.ofLink (.takeHeld p s _ (by simp))

theorem applyHeld (h : StoresSound s) (p : Port) : StoresSound (s.applyHeld p) := by
  unfold State.applyHeld
  split
  · exact h
  · exact foldl_keeps StoresSound _ (fun t x ht => ht.takeHeld p x) _ _ (h.congr (by simp) (by simp))

theorem placePixel (h : StoresSound s) (p : Port) (v : Level) : StoresSound (State.placePixel p s v) := by
  unfold State.placePixel
  split
  · exact h.congr (by simp [State.mapContext, State.pushEntry]) (by simp [State.mapContext, State.pushEntry])
  · exact h.ofLink (.ignorePixel s p)

end StoresSound

/-- A command of the link keeps the stores sound, whatever its transaction comes to. -/
theorem StoresSound.request {s : State} (h : StoresSound s) {i : Instr} {p : Port} {req : List Byte} {more : Bool}
    {n : Nat} (hr : requestOf i = some (p, req, more, n)) :
    Answers (exec i s) StoresSound := by
  refine ⟨_, exec_request hr s, StoresSound.ofLink ?_ (.settle _)⟩
  rcases s.transact_cases p (if more then .query n else .fixed n) req i (effectOf i) with hl | ⟨-, -, -, he⟩
  · exact h.ofLink hl
  · rw [he]
    exact (h.ofLink (.risen s p _)).ofEffect (effectOf_frame i _)

/-- Every command keeps both stores in canonical form and every record legal. -/
theorem StoresSound.exec {s : State} (h : StoresSound s) (i : Instr) :
    Answers (Machine.exec i s) StoresSound := by
  by_cases hl : isLinkEvent i = true
  · exact (exec_linkEvent i s hl).imp fun t => h.ofLink
  by_cases hs : isSupplyEvent i = true
  · obtain ⟨v, hv⟩ := exec_supplyEvent i s hs
    exact hv.imp fun t => (h.congr (t := s.withSupply v) rfl rfl).ofLink
  cases hr : requestOf i with
  | some r => exact h.request (i := i) hr
  | none =>
  have settled {u : State} (hu : StoresSound u) : Answers (.next u.settle) StoresSound := .next (hu.ofLink (.settle u))
  have same : Answers (.next s) StoresSound := .next h
  cases i with
  | powerOnReset r => exact ⟨_, rfl, .swept rfl rfl⟩
  | initSweepEnd =>
    simp only [Machine.exec, execInitSweepEnd]
    split
    · exact settled (.swept rfl rfl)
    · exact same
  | writePixels p ph =>
    cases ph with
    | rise => exact absurd rfl hl
    | code =>
      refine ⟨_, rfl, ?_⟩
      have ho := h.ofLink (.opened s p)
      unfold State.takeCode
      simp only
      split
      · split
        · exact StoresSound.ofLink (ho.congr (by simp [State.sendResponseByte]) (by simp [State.sendResponseByte])) (.settle _)
        · exact ho.ofLink (.clockUntaken _ p)
      · exact ho.ofLink (.clockUntaken _ p)
  | pixelDataByte p b =>
    simp only [Machine.exec, execPixelDataByte]
    split
    · refine settled ?_
      split
      · exact foldl_keeps StoresSound _ (fun t v ht => ht.placePixel p v) _ _ (h.ofLink (.sendResponseByte s p))
      · exact h.ofLink (.discardPixelByte s p)
    · exact ⟨_, rfl, h.ofLink (.clockUntaken s p)⟩
  | readbackLevelRead p =>
    simp only [Machine.exec, execReadbackLevelRead]
    split
    · split
      · split
        · exact settled (h.congr (by simp) (by simp))
        · exact same
      · exact same
    · exact same
  | validationEnd =>
    simp only [Machine.exec, execValidationEnd]
    split
    · split
      · refine settled ?_
        unfold State.enterValid
        refine StoresSound.ofLane ?_ ((LaneOnly.sweepQueue _).trans (.reconsider _))
        have h1 (v : TableUnit) (o : Port) : StoresSound (((s.withTable v).setResult o .ok).raiseBoth .tableChanged) :=
          (h.ofEffect (.withTable s v)).ofLane ((LaneOnly.setResult _ o .ok).trans (.raiseBoth _ _))
        exact (h1 _ _).ofEffect (.withTemp _ _)
      · exact settled ((h.ofEffect (.withTable s _)).ofLane (.setResult _ _ _))
    · exact same
  | geometrySweepEnd =>
    simp only [Machine.exec, execGeometrySweepEnd]
    split
    · refine settled (StoresSound.applyHeld (StoresSound.applyHeld (.swept ?_ ?_) .a) .b) <;>
        simp [State.sweptGeometry, State.mapPorts]
    · exact same
  | drainPixelEntry p =>
    simp only [Machine.exec, execDrainPixelEntry]
    split
    · split
      · rename_i x v rest _ _
        exact settled ((h.setLevel x v).congr (by simp) (by simp))
      · exact same
    · exact same
  | drainFillPixel p =>
    simp only [Machine.exec, execDrainFillPixel]
    split
    · split
      · rename_i r v x rest _ _
        exact settled ((h.setLevel x v).congr (by simp) (by simp))
      · exact same
    · exact same
  | drainSubmitEntry p =>
    simp only [Machine.exec, execDrainSubmitEntry]
    split
    · exact settled (StoresSound.ofLane (h.congr (by simp) (by simp)) (.enterQueue _ _))
    · exact same
  | surveyStart =>
    simp only [Machine.exec, execSurveyStart]
    split
    · exact settled (h.ofLane (((LaneOnly.mapLane s _ _).trans (.withSurveyList _ _)).trans (.withSurvey _ _)))
    · exact same
  | surveyVisit part =>
    simp only [Machine.exec, execSurveyVisit]
    split
    · split
      · split
        · exact settled (h.finishVisit _ _ _)
        · exact same
      · split
        · have hg : StoresSound (s.withLastGrant .survey) := h.ofEffect (.withLastGrant s _)
          split
          · exact settled (hg.finishVisit _ _ _)
          · exact settled (hg.ofLane (.withSurvey _ _))
        · exact same
      · exact same
    · exact same
  | surveyEnd =>
    simp only [Machine.exec, execSurveyEnd]
    have hc := h.ofLane (.closeSurvey s)
    split
    · split
      · split
        · exact settled (hc.ofLane (((LaneOnly.reportLane _ _ _).trans (.setLane _ _ _)).trans (.reconsider _)))
        · split
          · exact settled (hc.ofLane ((LaneOnly.joinRetire _ _ _ _).trans (.startRetire _)))
          · refine settled ?_
            refine StoresSound.ofEffect ?_ (.raiseOnDemand _)
            exact hc.ofLane ((LaneOnly.mapLane _ _ _).trans (.withArmingList _ _))
      · exact same
    · exact same
  | scanStart =>
    simp only [Machine.exec, execScanStart]
    split
    · split
      · exact settled (((h.ofLane (.admitLane s _)).ofEffect (.withScan _ _)).ofEffect (.withSupply _ _))
      · exact same
    · exact same
  | frameRow n =>
    simp only [Machine.exec, execFrameRow]
    split
    · exact settled ((h.drive _).ofEffect (.withScan _ _))
    · exact same
  | frameBoundary =>
    simp only [Machine.exec, execFrameBoundary]
    split
    · refine settled (StoresSound.ofLane ?_ (.startRetire _))
      have hf : StoresSound s.finishFrame := (h.drive _).ofEffect (.withScan _ _)
      have ha (c : Scanner) (v : Supply) : StoresSound ((s.finishFrame.withScan c).withSupply v).advance :=
        ((hf.ofEffect (.withScan _ c)).ofEffect (.withSupply _ v)).ofLane (.advance _)
      split
      · exact (ha _ _).ofEffect (.endScan _)
      · exact ((ha _ _).ofLane (.admitLane _ _)).ofEffect (.withScan _ _)
    · exact same
  | retireVisit =>
    simp only [Machine.exec, execRetireVisit]
    split
    · split
      · refine settled (StoresSound.ofLane ?_ (.withRetire _ _))
        split
        · exact h.setPixel _ _ (StoresSound.retired_legal _ _ _ _ (h.pixel_legal _))
        · exact h
      · exact same
    · exact same
  | retireWalkEnd =>
    simp only [Machine.exec, execRetireWalkEnd]
    split
    · split
      · exact settled (h.ofLane (((((((LaneOnly.reportLane s _ _).trans (.setLane _ _ _)).trans
          (.withRetireList _ _)).trans (.withRetire _ _)).trans (.reconsider _)).trans (.startRetire _))))
      · exact same
    · exact same
  | railLost =>
    refine settled ?_
    split
    · exact StoresSound.trip (h.ofEffect (.withSupply s _)) _
    · exact h.ofEffect (.withSupply s _)
  | riseTimeout =>
    simp only [Machine.exec, execRiseTimeout]
    split
    · exact settled (h.trip _)
    · exact same
  | zoneLapse z =>
    simp only [Machine.exec, execZoneLapse]
    split
    · have hz : StoresSound (s.leaveDoze.setZone z none) := (h.ofLink (.leaveDoze s)).ofEffect (.setZone _ _ _)
      exact settled (hz.ofLane ((LaneOnly.raise _ _ _).trans (.reconsider _)))
    · exact same
  | _ => simp [isLinkEvent, isSupplyEvent, requestOf] at hl hs hr

/-- What every command keeps, every step keeps, when it does not read the queue of waiting commands (Log 1, Log 2). -/
theorem step_keeps (P : State → Prop) (hp : ∀ (s : State) (v : List Instr), P s → P (s.withPending v))
    (he : ∀ (s t : State) (i : Instr), P s → exec i s = .next t → P t) (s t : State) (h : P s)
    (hs : step s = .next t) : P t := by
  unfold step at hs
  split at hs
  · cases hs; exact h
  · exact he _ _ _ (hp _ _ h) hs

/-- Settles O55: no event but a sweep, a drain, a claim, a frame and a writeback touches a store, and each of these
writes legal records in canonical form. -/
theorem stepKeepsStores : Obligations.StepKeepsStores := by
  intro s t h hs
  exact step_keeps StoresSound (fun s v h => h.congr rfl rfl) (fun s t i h he => (h.exec i).elim he) s t h hs

end Sys2Proof.Machine
end

section
/-! The start-up (R13, R161), GET_PIXEL (R15), the end of a geometry sweep (R68), a retire visit (R129 to R131) and the
reset state: each settled from the laws of the operations it is made of.
-/

namespace Sys2Proof.Machine

/-! ## Start-up -/

/-- Settles O4. -/
theorem startUp : Obligations.StartUp := by
  intro s hinit
  refine ⟨?_, fun hn => ?_, fun hn => ?_, fun x => ⟨rfl, rfl⟩⟩
  · simp [exec, execResetNRise, hinit]
  · simp [exec, execInitSweepEnd, hinit, hn]
  · simp [exec, execInitSweepEnd, hn]

/-! ## GET_PIXEL -/

/-- The coordinates of a GET_PIXEL read back, whatever fill bytes follow them. -/
theorem reqWord_pair (x y : Nat) (fill : List Byte) (hx : x < 65536) (hy : y < 65536) :
    reqWord (bytesOf 2 x ++ bytesOf 2 y ++ fill) 0 = x ∧ reqWord (bytesOf 2 x ++ bytesOf 2 y ++ fill) 2 = y := by
  simp [reqWord, bytesOf_two, word16_ofNat, hx, hy]

/-- A query that answers leaves its port as its transaction left it, with the response and result OK (R171). -/
theorem State.answer_risen (s : State) (p : Port) (n : Nat) (data : List Byte) :
    (s.setPort p (s.risen p n)).answer p data id =
      s.setPort p { s.ended p n .ok with response := (s.port p).result.code :: data } := by
  simp [State.answer, State.setResult_eq, State.risen, State.ended]

/-- The bytes of a record, as R185 lays them out. -/
theorem pixelBytes_eq (r : PixelRecord) : pixelBytes r =
    [(match r.shown with | none => 0x10 | some v => byteOf v.val),
     (match r.lane with | none => 0xFF | some l => byteOf (l.val + 1)), byteOf r.target.val,
     (if r.variant = .p then 1 else 0), BitVec.ofInt 8 r.residue, byteOf r.wear] := by
  rcases r with ⟨shown, lane, target, variant, residue, wear⟩
  cases shown <;> cases lane <;> cases variant <;> rfl

/-- Settles O38. -/
theorem getPixel : Obligations.GetPixel := by
  intro p s x y fill ht hx hy
  obtain ⟨h0, h2⟩ := reqWord_pair x y fill hx hy
  have hlen : (bytesOf 2 x ++ bytesOf 2 y ++ fill).length + 1 = fill.length + 5 := by simp; omega
  have hrun : exec (.getPixel p (bytesOf 2 x ++ bytesOf 2 y ++ fill)) s =
      .next (effectGetPixel p (bytesOf 2 x ++ bytesOf 2 y ++ fill) (s.setPort p (s.risen p (fill.length + 5)))).settle := by
    rw [exec_request (i := .getPixel p (bytesOf 2 x ++ bytesOf 2 y ++ fill)) rfl s, if_pos rfl,
      s.transact_takes p _ _ _ _ ht (by simp [Frame.fits]; omega), hlen]
    rfl
  simp only [hrun, effectGetPixel, h0, h2, State.setPort_width, State.setPort_height]
  refine ⟨fun hin => ?_, fun hout => ?_⟩
  · rw [if_pos hin, State.answer_risen, State.setPort_pixel, pixelBytes_eq] <;> rfl
  · rw [if_neg hout]
    simp [State.setResult_eq, State.risen, State.ended]

/-! ## The end of a geometry sweep -/

/-- Settles O35. -/
theorem geometrySweepEnd : Obligations.GeometrySweepEnd := by
  refine ⟨fun s hs => ?_, fun p s => ⟨fun h => ?_, fun h => ?_⟩, fun i p req more n s hr ht hn => ?_⟩
  · simp only [exec, execGeometrySweepEnd, hs, if_true]
    rfl
  · rcases h with h | h
    · simp [State.applyHeld, h]
    · exact s.applyHeld_none p h
  · simp only [State.applyHeld, h, Bool.false_eq_true, if_false]
    congr 1
    funext t x
    exact (State.takeHeld_eq p t x).trans (by cases x <;> rfl)
  · have hfit : (if more then Frame.query n else Frame.fixed n).fits req.length = true := by
      cases more <;> simpa [Frame.fits] using hn
    rw [exec_request hr, State.transact_takes s p _ req i _ ht hfit]
    rfl

/-! ## A retire visit -/

/-- A retire visit writes the record of a pixel of its lane and leaves any other, and the walk moves on (R129). -/
theorem exec_retireVisit (s : State) (w : RetireWalk) (x : Pos) (hw : s.retire = some w) (hx : w.pos = some x) :
    exec .retireVisit s = .next (((if (s.pixel x).lane = some w.lane then
      s.setPixel x ((s.pixel x).retired (s.writebackOf (s.lane w.lane) (s.pixel x)) w.clearing w.cost) else s).withRetire
        (some { w with pos := (s.lane w.lane).rect.nextPos x })).settle) := by
  simp only [exec, execRetireVisit, hw, hx]

/-- Settles O49. -/
theorem retireVisit : Obligations.RetireVisit := by
  intro s w x hw hx
  have hrun := exec_retireVisit s w x hw hx
  refine ⟨fun hl => ?_, fun hl hs hx1 => ?_⟩
  · rw [hrun, if_neg hl]
  · rw [if_pos hl] at hrun
    have hwf := ((Memory.wf_iff s).1 hs.form).2
    have hread (y : Pos) (hy : y.1 < 2048) := s.setPixel_pixel x y
      ((s.pixel x).retired (s.writebackOf (s.lane w.lane) (s.pixel x)) w.clearing w.cost) hwf hx1 hy
    refine ⟨_, hrun, fun y hy hne => ?_, ?_⟩
    · exact (hread y hy).trans (if_neg hne)
    · have hwritten := (hread x hx1).trans (if_pos rfl)
      simp only
      rw [show (s.withPixels (Store.write PixelRecord.swept s.pixels (address x) ((s.pixel x).retired
        (s.writebackOf (s.lane w.lane) (s.pixel x)) w.clearing w.cost))).pixel x = _ from hwritten]
      simp only [State.writebackOf]
      refine ⟨fun hk => ?_, fun hk => ?_, fun hk h1 => ?_, fun hk h1 h2 => ?_, fun hk h1 h2 => ?_, fun hk h1 => ?_,
        fun hk h1 => ?_⟩ <;> simp only [hk, Option.getD_some, writeback]
      · rfl
      · rfl
      · rw [if_pos h1]; rfl
      · rw [if_neg (by omega), if_pos h2]; rfl
      · rw [if_neg (by omega), if_neg (by omega)]; rfl
      · rw [if_pos h1]; rfl
      · rw [if_neg (by omega)]; rfl

/-! ## The reset state -/

theorem State.reset_pixel (x : Pos) : State.reset.pixel x = PixelRecord.swept := rfl

theorem State.reset_port (p : Port) : State.reset.port p = PortState.initial .closed := by cases p <;> rfl

/-- No list holds a lane or a request and no engine is at work (R92, R114, R135). -/
theorem State.reset_empty : State.reset.queue = [] ∧ State.reset.surveyList = [] ∧ State.reset.survey = none ∧
    State.reset.armingList = [] ∧ State.reset.retireList = [] ∧ State.reset.retire = none ∧ State.reset.pixels = [] :=
  ⟨rfl, rfl, rfl, rfl, rfl, rfl, rfl⟩

/-- The scan is IDLE, the supply OFF, the table EMPTY, and no sweep of a geometry runs (R38, R147, R160). -/
theorem State.reset_units : State.reset.scan.scanning = false ∧ State.reset.scan.pendingMark = none ∧
    State.reset.scan.markRow = 0 ∧ State.reset.supply.state = .off ∧ State.reset.table.phase = .empty ∧
    State.reset.table.table = none ∧ State.reset.power.geometrySweep = false :=
  ⟨rfl, rfl, rfl, rfl, rfl, rfl, rfl⟩

theorem LanesSound.reset : LanesSound State.reset := by
  obtain ⟨-, hsl, hsv, hal, hrl, hr, -⟩ := State.reset_empty
  obtain ⟨hsc, hpm, -, hsu, -⟩ := State.reset_units
  constructor <;> simp [State.reset_lane, Lane.rest, *]

theorem QueuesSound.reset : QueuesSound State.reset := by
  obtain ⟨hq, -⟩ := State.reset_empty
  constructor <;> simp [State.streamRequests, State.reset_port, PortState.initial, hq]

theorem GeometrySound.reset : GeometrySound State.reset := by
  refine ⟨by decide, by decide, fun _ p => ?_, fun p e he => ?_, fun q hq => ?_, fun z zone hz => ?_, fun l => ?_, ?_⟩
  · rw [State.reset_port]
    exact ⟨⟨by decide, by decide⟩, fun x hx => by cases hx; decide⟩
  · simp [State.reset_port, PortState.initial] at he
  · simp [State.reset_empty.1] at hq
  · simp at hz
  · rw [State.reset_lane]; exact ⟨by decide, by decide⟩
  · exact ⟨by decide, fun r hr => by cases hr⟩

theorem QuietSound.reset : QuietSound State.reset := by
  refine ⟨fun _ => ⟨?_, rfl, fun p => by rw [State.reset_port]; rfl, ?_⟩,
    fun _ => ⟨rfl, rfl, fun p => by rw [State.reset_port]; exact .inl rfl⟩, fun h => by cases h⟩
  · rw [State.allFree_iff]; intro l; rw [State.reset_lane]; rfl
  · rw [State.noZone_iff]; exact State.reset_zone

theorem ClaimsSound.reset : ClaimsSound State.reset := by
  obtain ⟨-, hsl, hsv, -, -, hr, hpx⟩ := State.reset_empty
  have ht := State.reset_units.2.2.2.2.2.1
  constructor <;> simp [State.reset_lane, Lane.rest, State.reset_pixel, PixelRecord.swept, hsl, hsv, hr, hpx, ht]

/-- Settles O54. -/
theorem resetSound : Obligations.ResetSound := by
  refine ⟨.swept rfl rfl, .reset, .reset, fun p => ?_, .reset, .reset, ?_, .reset⟩
  · simp [State.tagsOf, Lane.rest, State.streamRequests, State.reset_port, PortState.initial, State.reset_empty.1]
  · refine ⟨by decide, by decide, fun x hx => (by cases hx), fun _ => rfl, fun t ht => (by cases ht),
      fun h => (by cases h), by decide, by decide⟩

end Sys2Proof.Machine
end

section
/-! Counting the records of a store: by positions, and across a write. With it the frame walk (R8, R138 to R140) and the
visits of a survey (R98 to R105).
-/

namespace Sys2Proof.Machine

/-! ## Counting listed records -/

/-- Every address of a canonical store lies above its bound. -/
theorem Store.bound_lt {α : Type} [DecidableEq α] (d : α) (m : Store α) (j : Nat)
    (h : Store.wfFrom d (some j) m = true) : ∀ c ∈ m, j < c.1 := by
  induction m generalizing j with
  | nil => simp
  | cons e m ih =>
    simp only [Store.wfFrom, Bool.and_eq_true, decide_eq_true_eq] at h
    intro c hc
    rcases List.mem_cons.1 hc with rfl | hm
    · exact h.1.1
    · exact Nat.lt_trans h.1.1 (ih e.1 h.2 c hm)

/-- A canonical store lists no address twice. -/
theorem Store.keys_nodup {α : Type} [DecidableEq α] (d : α) (m : Store α) (b : Option Nat)
    (h : Store.wfFrom d b m = true) : (m.map Prod.fst).Nodup := by
  induction m generalizing b with
  | nil => exact List.nodup_nil
  | cons e m ih =>
    simp only [Store.wfFrom, Bool.and_eq_true] at h
    rw [List.map_cons, List.nodup_cons]
    refine ⟨fun hm => ?_, ih _ h.2⟩
    obtain ⟨c, hc, he⟩ := List.mem_map.1 hm
    exact Nat.lt_irrefl _ (he ▸ Store.bound_lt d m e.1 h.2 c hc)

/-- Records counted where the store lists them, or address by address: the same, for a property that an unlisted address
does not have. -/
theorem Store.countP_addresses {α : Type} [DecidableEq α] (d : α) (m : Store α) (h : Store.wf d m = true)
    (as : List Nat) (ha : as.Nodup) (f : α → Bool) (hf : f d = false) :
    (m.countP fun c => decide (c.1 ∈ as) && f c.2) = as.countP fun a => f (Store.read d m a) := by
  rw [List.countP_eq_length_filter, List.countP_eq_length_filter, ← List.length_map (f := Prod.fst)]
  refine List.Perm.length_eq ((List.perm_ext_iff_of_nodup ?_ (ha.filter _)).2 fun a => ?_)
  · exact (Store.keys_nodup d m none h).sublist (List.filter_sublist.map _)
  · simp only [List.mem_map, List.mem_filter, Bool.and_eq_true, decide_eq_true_eq]
    constructor
    · rintro ⟨c, ⟨hc, hin, hfc⟩, rfl⟩
      exact ⟨hin, by rwa [Store.read_mem d m none h c hc]⟩
    · rintro ⟨hin, hfa⟩
      rcases Store.read_eq_or_mem d m a with hr | hr
      · rw [hr, hf] at hfa; exact absurd hfa Bool.false_ne_true
      · exact ⟨_, ⟨hr, hin, hfa⟩, rfl⟩

/-- A write moves the count of a property by the record it replaces and the one it leaves. -/
theorem Store.countP_write {α : Type} [DecidableEq α] (d : α) (m : Store α) (a : Nat) (v : α) (f : α → Bool)
    (hf : f d = false) (b : Option Nat) (h : Store.wfFrom d b m = true) :
    ((Store.write d m a v).countP fun c => f c.2) + (if f (Store.read d m a) then 1 else 0) =
      (m.countP fun c => f c.2) + if f v then 1 else 0 := by
  induction m generalizing b with
  | nil =>
    by_cases hv : v = d
    · simp [Store.write, Store.read, hv, hf]
    · simp [Store.write, Store.read, hv, hf]
  | cons e m ih =>
    simp only [Store.wfFrom, Bool.and_eq_true] at h
    unfold Store.write
    split
    · rename_i hlt
      have hlt' : a ≠ e.1 := Nat.ne_of_lt hlt
      rw [Store.read, if_neg hlt', Store.read_below d m a e.1 (Nat.le_of_lt hlt) h.2, hf]
      by_cases hv : v = d
      · simp [hv, hf]
      · simp only [hv, if_false, List.countP_cons]
        simp
    · split
      · rename_i ha
        rw [Store.read, if_pos ha]
        by_cases hv : v = d
        · simp [hv, hf, List.countP_cons]
        · simp only [hv, if_false, List.countP_cons]
          omega
      · rename_i hne
        rw [Store.read, if_neg hne]
        have := ih (some e.1) h.2
        simp only [List.countP_cons]
        omega

/-! ## The frame walk -/

/-- The residue step of a legal record is the one of R8, held at ±127. -/
theorem State.drivenRecord_eq (s : State) (r : PixelRecord) (h : r.Legal) :
    s.drivenRecord r = r.stepped (s.driveCode r) := by
  obtain ⟨h1, h2⟩ := h.residue
  unfold State.drivenRecord
  cases s.driveCode r with
  | hold => rfl
  | pos =>
    have : stepResidue .pos r.residue = min 127 (r.residue + 1) := by
      simp only [stepResidue, clampInt, Config.residueBound, Drive.sign]
      omega
    rw [this]; rfl
  | neg =>
    have : stepResidue .neg r.residue = max (-127) (r.residue - 1) := by
      simp only [stepResidue, clampInt, Config.residueBound, Drive.sign]
      omega
    rw [this]; rfl

/-- A step clips exactly where it would carry the residue past an end (R8). -/
theorem stepClips_eq (d : Drive) (r : PixelRecord) (h : r.Legal) : stepClips d r.residue = r.clipped d := by
  obtain ⟨h1, h2⟩ := h.residue
  rw [Bool.eq_iff_iff]
  cases d with
  | hold => exact Iff.rfl
  | pos =>
    simp only [stepClips, PixelRecord.clipped, Bool.or_eq_true, decide_eq_true_eq]
    simp only [Config.residueBound, Drive.sign]
    omega
  | neg =>
    simp only [stepClips, PixelRecord.clipped, Bool.or_eq_true, decide_eq_true_eq]
    simp only [Config.residueBound, Drive.sign]
    omega

/-- The positions of a row that a step of the walk visits, from its column on (R138). -/
def rowVisits (y c0 stop : Nat) : List Pos :=
  ((List.range stop).filter fun k => decide (c0 ≤ k)).map fun k => ((k, y) : Pos)

theorem mem_rowVisits (y c0 stop : Nat) (x : Pos) : x ∈ rowVisits y c0 stop ↔ rowSpan y c0 stop x = true := by
  simp only [rowVisits, List.mem_map, List.mem_filter, List.mem_range, decide_eq_true_eq, rowSpan, Bool.and_eq_true]
  constructor
  · rintro ⟨k, ⟨h1, h2⟩, rfl⟩
    exact ⟨⟨rfl, h2⟩, h1⟩
  · rintro ⟨⟨h1, h2⟩, h3⟩
    exact ⟨x.1, ⟨h3, h2⟩, Prod.ext rfl h1.symm⟩

/-- The clips counted over the listed records are those of the positions visited (R8). -/
theorem State.clips_eq_clipCount (s : State) (hs : StoresSound s) (visits : Pos → Bool) (xs : List Pos)
    (hx : ∀ x, x.1 < 2048 → (x ∈ xs ↔ visits x = true)) (hin : ∀ x ∈ xs, x.1 < 2048) (hn : xs.Nodup) (l : LaneId) :
    s.clips visits l = s.clipCount xs l := by
  have hpos (a : Nat) : a ∈ xs.map address ↔ visits (a % Config.maxWidth, a / Config.maxWidth) = true := by
    have hcol : a % Config.maxWidth < 2048 := Nat.mod_lt _ (by decide)
    rw [← hx (a % Config.maxWidth, a / Config.maxWidth) hcol, List.mem_map]
    constructor
    · rintro ⟨x, hxs, rfl⟩
      rwa [address_pos (hin x hxs)]
    · intro h
      exact ⟨_, h, by simp only [address]; exact Nat.div_add_mod' a Config.maxWidth⟩
  have hnd : (xs.map address).Nodup := List.Nodup.map_on
    (fun x hx y hy he => (address_inj (hin x hx) (hin y hy)).1 he) hn
  have hcount := Store.countP_addresses PixelRecord.swept s.pixels ((Memory.wf_iff s).1 hs.form).2 (xs.map address) hnd
    (fun r => decide (r.lane = some l) && r.clipped (s.driveCode r)) (by simp [PixelRecord.swept])
  rw [List.countP_map] at hcount
  unfold State.clips State.clipCount
  refine Eq.trans (List.countP_congr fun c hc => ?_) hcount
  simp only [stepClips_eq _ _ (hs.records c hc), Bool.and_assoc, Bool.and_eq_true, ← hpos c.1, decide_eq_true_eq]

/-- Settles O46. -/
theorem frameRow : Obligations.FrameRow := by
  intro s n hscan hrow hn hwidth hs
  obtain ⟨lanes, hd, hlanes⟩ := s.drive_eq (rowSpan s.scan.walkRow s.scan.walkCol (min s.width (s.scan.walkCol + n)))
  have hpix (x : Pos) (hx : x.1 < 2048) :=
    s.drive_pixel (rowSpan s.scan.walkRow s.scan.walkCol (min s.width (s.scan.walkCol + n))) x hx
  simp only [hd] at hpix
  have hin : ∀ x ∈ rowVisits s.scan.walkRow s.scan.walkCol (min s.width (s.scan.walkCol + n)), x.1 < 2048 := by
    intro x hx
    simp only [mem_rowVisits, rowSpan, Bool.and_eq_true, decide_eq_true_eq] at hx
    omega
  refine ⟨lanes, s.pixels.map fun c => (c.1, if rowSpan s.scan.walkRow s.scan.walkCol
      (min s.width (s.scan.walkCol + n)) (c.1 % Config.maxWidth, c.1 / Config.maxWidth) then s.drivenRecord c.2 else c.2),
    ?_, fun x hx => ?_, fun x hx hnot => ?_, fun l => ?_⟩
  · simp only [exec, execFrameRow, hscan, hrow, hn, and_self, if_true, hd]
    congr 5
    by_cases hp : s.scan.walkCol = 0 ∧ s.scan.walkRow = s.scan.markRow ∧ s.scan.walkRow ≠ 0
    · rw [if_pos hp, if_pos (by simp [hp.1, ← hp.2.1, hp.2.2])]
    · rw [if_neg hp, if_neg (by simpa [and_assoc] using hp), Nat.add_zero]
  · have hv := (mem_rowVisits _ _ _ x).1 hx
    refine (hpix x (hin x hx)).trans ?_
    rw [if_pos hv]
    exact s.drivenRecord_eq _ (hs.pixel_legal x)
  · refine (hpix x hx).trans (if_neg fun hv => hnot ((mem_rowVisits _ _ _ x).2 hv))
  · rw [hlanes l, s.clips_eq_clipCount hs _ (rowVisits s.scan.walkRow s.scan.walkCol _)
      (fun x _ => mem_rowVisits _ _ _ x) hin _ l]
    · rfl
    · exact (List.nodup_range.filter _).map fun a b h => congrArg Prod.fst h

end Sys2Proof.Machine
end

section
/-! The visits of a survey (R98 to R105): what each of the five tests leads to, and the counts of a claim.
-/

namespace Sys2Proof.Machine

/-! ## The tests of a record visit -/

section Visit

variable (s : State) (w : Survey) (x : Pos) (v : Level)

/-- The pixel lies in a zone that a lane of SKIP policy leaves alone (R101). -/
def State.zoned : Prop := (s.lane w.lane).policy = .skip ∧ s.zoneHolds (s.lane w.lane).owner x = true

/-- The pixel is UNKNOWN and no mode of the lane takes it (R102). -/
def State.unknownRefused : Prop :=
  (s.pixel x).shown = none ∧ w.mode.acceptsUnknown = false ∧ w.mode.promote = none

/-- The pixel shows its target and the mode leaves it (R103). -/
def State.unchangedLeft : Prop :=
  (s.pixel x).shown = some (quantize w.mode.levels v) ∧ w.mode.drivesUnchanged = false

theorem State.visitRecord_busy (h : (s.pixel x).lane ≠ none) : s.visitRecord w x v =
    s.setLane w.lane { s.lane w.lane with busySkipped := (s.lane w.lane).busySkipped + 1 } := by
  have hv : s.verdict w x (quantize w.mode.levels v) = .busy := by
    simp [State.verdict, Option.isSome_iff_ne_none, h]
  simp [State.visitRecord, hv]

theorem State.visitRecord_zoneSkip (h : (s.pixel x).lane = none) (hz : s.zoned w x) : s.visitRecord w x v =
    s.setLane w.lane { s.lane w.lane with zoneSkipped := (s.lane w.lane).zoneSkipped + 1 } := by
  have hv : s.verdict w x (quantize w.mode.levels v) = .zoneSkip := by
    simp [State.verdict, h, hz.1, hz.2]
  simp [State.visitRecord, hv]

theorem State.visitRecord_unknownSkip (h : (s.pixel x).lane = none) (hz : ¬ s.zoned w x)
    (hu : s.unknownRefused w x) : s.visitRecord w x v =
    s.setLane w.lane { s.lane w.lane with unknownSkipped := (s.lane w.lane).unknownSkipped + 1 } := by
  have hv : s.verdict w x (quantize w.mode.levels v) = .unknownSkip := by
    unfold State.zoned at hz
    simp [State.verdict, h, hz, hu.1, hu.2.1, hu.2.2]
  simp [State.visitRecord, hv]

theorem State.visitRecord_unchanged (h : (s.pixel x).lane = none) (hz : ¬ s.zoned w x)
    (hk : s.unchangedLeft w x v) : s.visitRecord w x v = s := by
  have hv : s.verdict w x (quantize w.mode.levels v) = .unchanged := by
    unfold State.zoned at hz
    simp [State.verdict, h, hz, hk.1, hk.2]
  simp [State.visitRecord, hv]

theorem State.visitRecord_claim (h : (s.pixel x).lane = none) (hz : ¬ s.zoned w x) (hu : ¬ s.unknownRefused w x)
    (hk : ¬ s.unchangedLeft w x v) : s.visitRecord w x v =
    (s.setLane w.lane (s.claimCounts w (s.pixel x) (quantize w.mode.levels v) (s.lane w.lane))).setPixel x
      ((s.pixel x).claimedBy w.lane (quantize w.mode.levels v)) := by
  have hv : s.verdict w x (quantize w.mode.levels v) = .claim := by
    unfold State.zoned at hz
    unfold State.unknownRefused at hu
    unfold State.unchangedLeft at hk
    simp only [State.verdict, h, hz, hu, hk, Option.isSome_none, Bool.false_eq_true, if_false]
  simp [State.visitRecord, hv]

end Visit

/-! ## SURVEY_VISIT -/

@[simp] theorem State.setLane_self (s : State) (l : LaneId) : s.setLane l (s.lane l) = s := by
  simp [State.setLane, State.lane, State.withLanes]

/-- A visit's read, made before or in the same step, and then its record visit (R98). -/
theorem exec_surveyVisit_whole (s : State) (w : Survey) (x : Pos) (v : Level) (hw : s.survey = some w)
    (hx : w.pos = some x)
    (hv : w.read = some v ∨ w.read = none ∧ s.turn = some .survey ∧ v = s.level x) :
    exec (.surveyVisit .whole) s =
      .next (((if w.read = none then s.withLastGrant .survey else s).finishVisit w x v).settle) := by
  rcases hv with hr | ⟨hr, ht, rfl⟩
  · simp [exec, execSurveyVisit, hw, hx, hr]
  · simp [exec, execSurveyVisit, hw, hx, hr, ht]

/-- A record visit reads nothing of the arbiter (R53). -/
theorem State.grant_reads (s : State) (c : Prop) [Decidable c] (g : Requester) :
    ∃ t, t = (if c then s.withLastGrant g else s) ∧ t.pixels = s.pixels ∧ t.lane = s.lane ∧ t.pixel = s.pixel ∧
      t.recipe = s.recipe ∧ t.zoneHolds = s.zoneHolds := by
  refine ⟨_, rfl, ?_⟩
  split <;> exact ⟨rfl, rfl, rfl, rfl, rfl⟩

/-- The wear-out evaluation of R105, with the bound on both sides. -/
theorem wornOut_iff (w : Survey) (net : Int) (r : PixelRecord) : wornOut w net r = true ↔
    ((w.residueLimit : Int) < r.residue + net ∨ r.residue + net < -(w.residueLimit : Int) ∨
      w.wearLimit < r.wear + w.mode.cost) := by
  simp only [wornOut, Bool.or_eq_true, decide_eq_true_eq, lt_abs]
  omega

/-- The counts after a claim (R104, R105). -/
theorem State.claimCounts_fields (s : State) (w : Survey) (r : PixelRecord) (t : Level) (L : Lane) :
    let L' := s.claimCounts w r t L
    let recipe := s.recipe L.requestedMode L.band r.shown t (variantOf r.residue)
    L' = { L with
      claimed := L.claimed + 1, changing := L'.changing, unknownClaimed := L'.unknownClaimed, worn := L'.worn
      longestRequested := max L.longestRequested recipe.length, longestPromoted := L'.longestPromoted } ∧
    (r.shown = some t → L'.changing = L.changing ∧ L'.worn = L.worn) ∧
    (r.shown ≠ some t → L'.changing = L.changing + 1) ∧
    (r.shown = none → L'.unknownClaimed = L.unknownClaimed + 1 ∧ L'.worn = L.worn) ∧
    (r.shown ≠ none → L'.unknownClaimed = L.unknownClaimed) ∧
    (r.shown ≠ none → r.shown ≠ some t → wornOut w recipe.net r = true → L'.worn = L.worn + 1) ∧
    (r.shown ≠ none → r.shown ≠ some t → ¬ wornOut w recipe.net r = true → L'.worn = L.worn) ∧
    (w.mode.promote = none → L'.longestPromoted = L.longestPromoted) ∧
    (∀ k, w.mode.promote = some k → L'.longestPromoted =
      max L.longestPromoted (s.recipe k L.band r.shown t (variantOf r.residue)).length) := by
  refine ⟨rfl, fun h => ?_, fun h => ?_, fun h => ?_, fun h => ?_, fun h1 h2 h3 => ?_, fun h1 h2 h3 => ?_, fun h => ?_,
    fun k h => ?_⟩
  · simp [State.claimCounts, h]
  · simp [State.claimCounts, h]
  · simp [State.claimCounts, h]
  · simp [State.claimCounts, h]
  · simp [State.claimCounts, Option.isSome_iff_ne_none, h1, h2, h3]
  · simp [State.claimCounts, h3]
  · simp [State.claimCounts, h]
  · simp [State.claimCounts, h]

/-- Settles O43. -/
theorem surveyVisit : Obligations.SurveyVisit := by
  intro s w x hw hx
  refine ⟨fun hr ht => by simp [exec, execSurveyVisit, hw, hx, hr, ht], fun v hv => ?_⟩
  intro L r t
  have ht : t = quantize w.mode.levels v := by
    simp only [t]
    cases w.mode.levels <;> rfl
  clear_value t
  subst ht
  simp only [L, r]
  have hrun := exec_surveyVisit_whole s w x v hw hx hv
  obtain ⟨u, hu, hpixels, hlane, hpixel, hrecipe, hzones⟩ := s.grant_reads (w.read = none) .survey
  rw [← hu] at hrun
  have hkeep (L : Lane) : (u.setLane w.lane L).withPixels s.pixels = u.setLane w.lane L := by rw [← hpixels]; rfl
  have hz : u.zoned w x ↔ (s.lane w.lane).policy = .skip ∧
      ∃ z zone, s.zone z = some zone ∧ zone.owner ≠ (s.lane w.lane).owner ∧ zone.rect.has x = true := by
    rw [State.zoned, hlane, hzones, State.zoneHolds_iff]
  simp only [← hu, hkeep]
  unfold State.finishVisit at hrun
  rw [hlane] at hrun
  refine ⟨fun hl => ?_, fun hl hzone => ?_, fun hl hzone hunk => ?_, fun hl hzone hunk hunch => ?_,
    fun hl hzone hunk hunch => ?_⟩
  · rw [hrun, u.visitRecord_busy w x v (by rwa [hpixel]), hlane]
  · rw [hrun, u.visitRecord_zoneSkip w x v (by rwa [hpixel]) (hz.2 hzone), hlane]
  · rw [hrun, u.visitRecord_unknownSkip w x v (by rwa [hpixel]) (mt hz.1 hzone) (by rwa [State.unknownRefused, hpixel]),
      hlane]
  · rw [hrun, u.visitRecord_unchanged w x v (by rwa [hpixel]) (mt hz.1 hzone)
      (by rwa [State.unchangedLeft, hpixel]), ← hlane, u.setLane_self]
  · have hclaim := u.visitRecord_claim w x v (by rwa [hpixel]) (mt hz.1 hzone)
      (by rwa [State.unknownRefused, hpixel]) (by rwa [State.unchangedLeft, hpixel])
    have hcounts := u.claimCounts_fields w (s.pixel x) (quantize w.mode.levels v) (s.lane w.lane)
    simp only [hrecipe, wornOut_iff] at hcounts
    rw [hpixel, hlane] at hclaim
    refine ⟨u.claimCounts w (s.pixel x) (quantize w.mode.levels v) (s.lane w.lane),
      Store.write PixelRecord.swept s.pixels (address x) ((s.pixel x).claimedBy w.lane (quantize w.mode.levels v)),
      ?_, ?_⟩
    · rw [hrun, hclaim, State.setPixel, State.setLane_pixels, hpixels]
    · obtain ⟨h1, h2, h3, h4, h5, h6, h7, h8, h9⟩ := hcounts
      refine ⟨h1, h2, h3, h4, h5, h6, h7, h8, h9, fun hs hx1 => ⟨?_, fun y hy hne => ?_⟩⟩
      · exact (s.setPixel_pixel x x _ ((Memory.wf_iff s).1 hs.form).2 hx1 hx1).trans (if_pos rfl)
      · exact (s.setPixel_pixel x y _ ((Memory.wf_iff s).1 hs.form).2 hx1 hy).trans (if_neg hne)

end Sys2Proof.Machine
end

section
/-! The lanes that a reset ends (R14, R114, R127), and the two reset commands (R179, R180): every lane, list and engine
after `State.endLanes`, from a state whose lanes are sound.
-/

namespace Sys2Proof.Machine

/-! ## Folds over lanes -/

/-- PENDING lanes end one after another: each is at rest and off the survey list, their records go to the done queues
(R110, R113). -/
theorem State.foldl_endPending (o : UpdateOutcome) (ls : List LaneId) (s : State) :
    ∃ (v : Vector Lane 15) (a b : PortState),
      ls.foldl (State.endPending o) s =
        ((((s.withLanes v).withSurveyList (s.surveyList.filter fun k => decide (k ∉ ls))).setPort .a a).setPort .b b) ∧
      (∀ l, (s.withLanes v).lane l = if l ∈ ls then Lane.rest else s.lane l) ∧
      (ls.Nodup → (∀ l ∈ ls, (s.lane l).report = false) → a = s.portA ∧ b = s.portB) := by
  induction ls generalizing s with
  | nil => exact ⟨s.lanes, s.portA, s.portB, by simp [State.withLanes, State.withSurveyList, State.setPort],
      fun l => by simp [State.lane, State.withLanes], fun _ _ => ⟨rfl, rfl⟩⟩
  | cons k ls ih =>
    obtain ⟨v, a, b, h1, h2, h3⟩ := ih (State.endPending o s k)
    have hlane (l : LaneId) : (State.endPending o s k).lane l = if l = k then Lane.rest else s.lane l := by
      rw [State.endPending_eq]
      split <;> simp [State.appendDone_eq]
    have hlist : (State.endPending o s k).surveyList = s.surveyList.filter fun j => decide (j ≠ k) := by
      rw [State.endPending_eq]; rfl
    have hbody (c d : PortState) (w : Vector Lane 15) (sl : List LaneId) :
        ((((State.endPending o s k).withLanes w).withSurveyList sl).setPort .a c).setPort .b d =
          ((((s.withLanes w).withSurveyList sl).setPort .a c).setPort .b d) := by
      rw [State.endPending_eq]
      split
      · rw [State.appendDone_eq]; cases (s.lane k).owner <;> rfl
      · rfl
    refine ⟨v, a, b, ?_, fun l => ?_, fun hn hr => ?_⟩
    · rw [List.foldl_cons, h1, hbody, hlist, List.filter_filter]
      congr 4
      funext j
      by_cases hj : j = k <;> simp [hj]
    · have h2l := h2 l
      rw [State.withLanes_lane, hlane] at h2l
      rw [State.withLanes_lane, h2l]
      by_cases hk : l = k <;> simp [hk]
    · have hport : (State.endPending o s k).portA = s.portA ∧ (State.endPending o s k).portB = s.portB := by
        rw [State.endPending_eq, if_neg (by simp [hr k (by simp)])]
        exact ⟨rfl, rfl⟩
      rw [← hport.1, ← hport.2]
      obtain ⟨hk, hn⟩ := List.nodup_cons.1 hn
      refine h3 hn fun l hl => ?_
      rw [hlane, if_neg (by rintro rfl; exact hk hl)]
      exact hr l (by simp [hl])

/-- A lane's record as it joins the retire list (R128). -/
def Lane.leaving (L : Lane) (k : RetireKind) (o : UpdateOutcome) : Lane :=
  { L with state := .retiring, kind := some k, outcome := some o }

/-- Lanes of a list without repeats join the retire list one after another (R123, R128). -/
theorem State.foldl_leaving (k : RetireKind) (o : UpdateOutcome) (ls : List LaneId) (s : State) (h : ls.Nodup) :
    ∃ lanes : Vector Lane 15,
      ls.foldl (State.joinRetire k o) s = (s.withLanes lanes).withRetireList (s.retireList ++ ls) ∧
      ∀ l, (s.withLanes lanes).lane l = if l ∈ ls then (s.lane l).leaving k o else s.lane l :=
  s.foldl_joinRetire k o ls h

/-- A RUNNING lane's record once it is marked for abort (R124). -/
def Lane.aborting (L : Lane) : Lane := { L with abort := true }

/-! ## The lanes that a reset ends -/

/-- A lane of the ports of `mine`. -/
def State.ownedBy (s : State) (mine : Port → Bool) (l : LaneId) : Bool := mine (s.lane l).owner

/-- The lanes of `mine` that a reset releases, in number order: the one in SURVEY and the ARMED ones. -/
def State.releasedBy (s : State) (mine : Port → Bool) : List LaneId :=
  laneIds.filter fun l => s.ownedBy mine l &&
    (decide ((s.lane l).state = .survey) || decide ((s.lane l).state = .armed))

theorem State.mem_lanesOf (s : State) (mine : Port → Bool) (st : LaneState) (l : LaneId) :
    l ∈ s.lanesOf mine st ↔ (s.lane l).state = st ∧ mine (s.lane l).owner = true := by
  simp [State.lanesOf, State.mem_lanesIn]

theorem State.lanesOf_nodup (s : State) (mine : Port → Bool) (st : LaneState) : (s.lanesOf mine st).Nodup :=
  (s.lanesIn_nodup st).filter _

theorem State.releasedBy_nodup (s : State) (mine : Port → Bool) : (s.releasedBy mine).Nodup := laneIds_nodup.filter _

theorem State.mem_releasedBy (s : State) (mine : Port → Bool) (l : LaneId) : l ∈ s.releasedBy mine ↔
    s.ownedBy mine l = true ∧ ((s.lane l).state = .survey ∨ (s.lane l).state = .armed) := by
  simp [State.releasedBy]

/-- A lane whose report a reset takes away (R114, R127). -/
def Lane.silenced (mine : Port → Bool) (L : Lane) : Lane :=
  if mine L.owner && decide (L.state ≠ .free) then { L with report := false } else L

/-- The first part of a reset: no lane of `mine` reports any more. -/
theorem State.foldl_silence (s : State) (mine : Port → Bool) : ∃ v : Vector Lane 15,
    laneIds.foldl (State.silence mine) s = s.withLanes v ∧
    ∀ l, (s.withLanes v).lane l = (s.lane l).silenced mine := by
  have hstep : State.silence mine = fun t l => t.mapLane l (Lane.silenced mine) := by
    funext t l
    unfold State.silence
    rw [State.mapLane_eq, State.mapLane_eq, Lane.silenced]
    split
    · rfl
    · exact (t.setLane_self l).symm
  obtain ⟨v, h1, h2⟩ := s.foldl_mapLane (fun _ => Lane.silenced mine) laneIds laneIds_nodup
  refine ⟨v, by rw [hstep]; exact h1, fun l => ?_⟩
  rw [h2 l, if_pos (mem_laneIds l)]

/-- The second part: the PENDING lanes of `mine`, which report no more, are at rest and off the survey list. -/
theorem State.endPendingOf (s : State) (mine : Port → Bool)
    (hr : ∀ l ∈ s.lanesOf mine .pending, (s.lane l).report = false) : ∃ v : Vector Lane 15,
    (s.lanesOf mine .pending).foldl (State.endPending .withdrawn) s =
      (s.withLanes v).withSurveyList (s.surveyList.filter fun k => decide (k ∉ s.lanesOf mine .pending)) ∧
    ∀ l, (s.withLanes v).lane l =
      if (s.lane l).state = .pending ∧ mine (s.lane l).owner = true then Lane.rest else s.lane l := by
  obtain ⟨v, a, b, h1, h2, h3⟩ := s.foldl_endPending .withdrawn (s.lanesOf mine .pending)
  obtain ⟨rfl, rfl⟩ := h3 (s.lanesOf_nodup mine _) hr
  exact ⟨v, h1, fun l => by rw [h2 l]; simp only [s.mem_lanesOf]⟩

/-- The decision of the lane being surveyed, by the survey under way (R107). -/
def State.decidedBy (s : State) (L : Lane) : Lane :=
  match s.survey with
  | some w => L.decided w.mode
  | none => L

/-- The third part: the survey of a lane of `mine` stops with its decision made (R111). -/
theorem State.closeSurveyOf (s : State) (mine : Port → Bool)
    (hs : ∀ l, s.survey.map Survey.lane = some l ↔ (s.lane l).state = .survey) : ∃ v : Vector Lane 15,
    (if (s.lanesOf mine .survey).isEmpty then s else s.closeSurvey) = (s.withLanes v).withSurvey
      (if s.survey.any fun w => s.ownedBy mine w.lane then none else s.survey) ∧
    ∀ l, (s.withLanes v).lane l =
      if (s.lane l).state = .survey ∧ s.ownedBy mine l = true then s.decidedBy (s.lane l) else s.lane l := by
  have hempty : (s.lanesOf mine .survey).isEmpty = true ↔ ¬ (s.survey.any fun w => s.ownedBy mine w.lane) = true := by
    rw [List.isEmpty_iff, List.eq_nil_iff_forall_not_mem]
    simp only [s.mem_lanesOf, ← hs, Option.map_eq_some_iff, Option.any_eq_true, State.ownedBy]
    constructor
    · rintro h ⟨w, hw, hm⟩
      exact h w.lane ⟨⟨w, hw, rfl⟩, hm⟩
    · rintro h l ⟨⟨w, hw, rfl⟩, hm⟩
      exact h ⟨w, hw, hm⟩
  by_cases hany : (s.survey.any fun w => s.ownedBy mine w.lane) = true
  · rw [if_neg (fun he => hempty.1 he hany), if_pos hany, State.closeSurvey_eq]
    cases hw : s.survey with
    | none => simp [hw] at hany
    | some w =>
      refine ⟨_, rfl, fun l => ?_⟩
      have hown : mine (s.lane w.lane).owner = true := by simpa [hw, State.ownedBy] using hany
      have hl := hs l
      simp only [hw, Option.map_some, Option.some.injEq] at hl
      rw [show (s.withLanes _).lane l = _ from s.setLane_lane w.lane l _]
      by_cases he : l = w.lane
      · subst he
        rw [if_pos rfl, if_pos ⟨hl.1 rfl, hown⟩, State.decidedBy, hw]
      · rw [if_neg he, if_neg fun hc => he (hl.2 hc.1).symm]
  · rw [if_pos (hempty.2 hany), if_neg hany]
    refine ⟨s.lanes, rfl, fun l => ?_⟩
    rw [if_neg]
    · rfl
    · rintro ⟨h1, h2⟩
      have hm := (s.mem_lanesOf mine .survey l).2 ⟨h1, h2⟩
      rw [List.isEmpty_iff.1 (hempty.2 hany)] at hm
      exact absurd hm (by simp)

/-- The last part: the released lanes retire with nothing written, and the RUNNING lanes of `mine` are marked for abort
(R114, R127). -/
theorem State.releaseAndAbort (s : State) (mine : Port → Bool) (rel : List LaneId) (hn : rel.Nodup)
    (al : List LaneId) : ∃ v : Vector Lane 15,
    ((((rel.foldl (State.joinRetire .release .withdrawn) s).withArmingList al).lanesOf mine .running).foldl
      (fun t l => t.mapLane l fun r => { r with abort := true })
        ((rel.foldl (State.joinRetire .release .withdrawn) s).withArmingList al)) =
      ((s.withLanes v).withArmingList al).withRetireList (s.retireList ++ rel) ∧
    ∀ l, (s.withLanes v).lane l =
      if l ∈ rel then (s.lane l).leaving .release .withdrawn
      else if (s.lane l).state = .running ∧ s.ownedBy mine l = true then (s.lane l).aborting
      else s.lane l := by
  obtain ⟨v4, e4, hv4⟩ := s.foldl_leaving .release .withdrawn rel hn
  rw [e4]
  obtain ⟨v6, e6, hv6⟩ := State.foldl_mapLane (fun _ => Lane.aborting)
    ((((s.withLanes v4).withRetireList (s.retireList ++ rel)).withArmingList al).lanesOf mine .running)
    (((s.withLanes v4).withRetireList (s.retireList ++ rel)).withArmingList al) (State.lanesOf_nodup _ _ _)
  refine ⟨v6, e6, fun l => ?_⟩
  have h6 := hv6 l
  simp only [State.mem_lanesOf, State.withArmingList_lane, State.withRetireList_lane, hv4 l] at h6
  refine Eq.trans h6 ?_
  by_cases hl : l ∈ rel
  · rw [if_pos hl, if_pos hl, if_neg (fun hc => by simp [Lane.leaving] at hc)]
  · rw [if_neg hl, if_neg hl]; rfl

/-- The first two parts together, from a state whose survey list holds the PENDING lanes (R110, R114). -/
theorem State.endPendingLanes (s : State) (mine : Port → Bool)
    (hp : ∀ l, l ∈ s.surveyList ↔ (s.lane l).state = .pending) : ∃ v : Vector Lane 15,
    ((laneIds.foldl (State.silence mine) s).lanesOf mine .pending).foldl (State.endPending .withdrawn)
      (laneIds.foldl (State.silence mine) s) =
      (s.withLanes v).withSurveyList (s.surveyList.filter fun l => !s.ownedBy mine l) ∧
    ∀ l, (s.withLanes v).lane l =
      if (s.lane l).state = .pending ∧ s.ownedBy mine l = true then Lane.rest else (s.lane l).silenced mine := by
  obtain ⟨v1, e1, hv1⟩ := s.foldl_silence mine
  have same (l : LaneId) : ((s.withLanes v1).lane l).state = (s.lane l).state ∧
      ((s.withLanes v1).lane l).owner = (s.lane l).owner := by
    rw [hv1, Lane.silenced]; split <;> exact ⟨rfl, rfl⟩
  have mem (l : LaneId) : l ∈ (s.withLanes v1).lanesOf mine .pending ↔
      (s.lane l).state = .pending ∧ s.ownedBy mine l = true := by
    rw [State.mem_lanesOf, (same l).1, (same l).2]; rfl
  obtain ⟨v2, e2, hv2⟩ := (s.withLanes v1).endPendingOf mine fun l hl => by
    obtain ⟨hst, hm⟩ := (mem l).1 hl
    unfold State.ownedBy at hm
    rw [hv1, Lane.silenced, if_pos (by simp [hst, hm])]
  have list : (s.withLanes v1).surveyList.filter (fun k => decide (k ∉ (s.withLanes v1).lanesOf mine .pending)) =
      s.surveyList.filter fun l => !s.ownedBy mine l :=
    List.filter_congr fun l hl => by simp [mem, (hp l).1 hl]
  rw [list] at e2
  refine ⟨v2, by rw [e1, e2]; rfl, fun l => ?_⟩
  have h2 := hv2 l
  rw [(same l).1, (same l).2, hv1 l] at h2
  exact h2

/-- The other parts together: the survey stops, lanes are released, lanes are marked for abort (R111, R114, R127). -/
theorem State.stopAndRelease (s : State) (mine : Port → Bool)
    (hs : ∀ l, s.survey.map Survey.lane = some l ↔ (s.lane l).state = .survey) : ∃ v : Vector Lane 15,
    (let stopped := s.lanesOf mine .survey
    let t := if stopped.isEmpty then s else s.closeSurvey
    let released := laneIds.filter fun l => stopped.contains l || (t.lanesOf mine .armed).contains l
    let t := released.foldl (State.joinRetire .release .withdrawn) t
    let t := t.withArmingList (t.armingList.filter fun l => !released.contains l)
    (t.lanesOf mine .running).foldl (fun t l => t.mapLane l fun r => { r with abort := true }) t) =
      ((((s.withLanes v).withSurvey (if s.survey.any fun w => s.ownedBy mine w.lane then none else s.survey)).withArmingList
        (s.armingList.filter fun l => !(s.releasedBy mine).contains l)).withRetireList
          (s.retireList ++ s.releasedBy mine)) ∧
    ∀ l, (s.withLanes v).lane l =
      if l ∈ s.releasedBy mine then
        (if (s.lane l).state = .survey then s.decidedBy (s.lane l) else s.lane l).leaving .release .withdrawn
      else if (s.lane l).state = .running ∧ s.ownedBy mine l = true then (s.lane l).aborting
      else s.lane l := by
  obtain ⟨v3, e3, hv3⟩ := s.closeSurveyOf mine hs
  have decided (L : Lane) : (s.decidedBy L).state = L.state ∧ (s.decidedBy L).owner = L.owner := by
    unfold State.decidedBy Lane.decided
    split
    · split <;> exact ⟨rfl, rfl⟩
    · exact ⟨rfl, rfl⟩
  have same (l : LaneId) : ((s.withLanes v3).lane l).state = (s.lane l).state ∧
      ((s.withLanes v3).lane l).owner = (s.lane l).owner := by
    rw [hv3]; split
    · exact decided _
    · exact ⟨rfl, rfl⟩
  simp only [e3]
  have released : (laneIds.filter fun l => (s.lanesOf mine .survey).contains l ||
      (((s.withLanes v3).withSurvey (if s.survey.any fun w => s.ownedBy mine w.lane then none else s.survey)).lanesOf
        mine .armed).contains l) = s.releasedBy mine := by
    refine List.filter_congr fun l _ => ?_
    rw [Bool.eq_iff_iff]
    simp only [Bool.or_eq_true, Bool.and_eq_true, List.contains_iff_mem, State.mem_lanesOf, State.withSurvey_lane,
      (same l).1, (same l).2, decide_eq_true_eq, State.ownedBy]
    tauto
  rw [released]
  obtain ⟨v, e, hv⟩ := ((s.withLanes v3).withSurvey
    (if s.survey.any fun w => s.ownedBy mine w.lane then none else s.survey)).releaseAndAbort mine (s.releasedBy mine)
      (s.releasedBy_nodup mine) (s.armingList.filter fun l => !(s.releasedBy mine).contains l)
  have hal (t : State) (ls : List LaneId) (k : RetireKind) (o : UpdateOutcome) (hn : ls.Nodup) :
      (ls.foldl (State.joinRetire k o) t).armingList = t.armingList := by
    obtain ⟨u, hu, -⟩ := t.foldl_joinRetire k o ls hn
    rw [hu]; rfl
  rw [hal _ _ _ _ (s.releasedBy_nodup mine), State.withSurvey_armingList, State.withLanes_armingList]
  refine ⟨v, e, fun l => ?_⟩
  have h := hv l
  simp only [State.withSurvey_lane, (same l).1] at h
  have own : ((s.withLanes v3).withSurvey
      (if s.survey.any fun w => s.ownedBy mine w.lane then none else s.survey)).ownedBy mine l = s.ownedBy mine l :=
    congrArg mine (same l).2
  rw [own] at h
  refine Eq.trans h ?_
  by_cases hx : (s.lane l).state = .survey ∧ s.ownedBy mine l = true
  · have hin : l ∈ s.releasedBy mine := (s.mem_releasedBy mine l).2 ⟨hx.2, .inl hx.1⟩
    rw [hv3, if_pos hin, if_pos hin, if_pos hx, if_pos hx.1]
  · rw [hv3, if_neg hx]
    by_cases hin : l ∈ s.releasedBy mine
    · have hst : (s.lane l).state ≠ .survey := fun hc => hx ⟨hc, ((s.mem_releasedBy mine l).1 hin).1⟩
      rw [if_pos hin, if_pos hin, if_neg hst]
    · rw [if_neg hin, if_neg hin]

/-- Taking the report away does not touch the decision (R107). -/
theorem Lane.decided_report (L : Lane) (m : ModeRecord) :
    ({ L with report := false } : Lane).decided m = { L.decided m with report := false } := by
  unfold Lane.decided
  rw [show promotes m { L with report := false } = promotes m L from rfl]
  split <;> rfl

/-- A lane in SURVEY that a reset ends: decided and released, with no report (R111, R114). -/
theorem endedLane_survey (s : State) (L : Lane) (h : L.state = .survey) :
    endedLane s L = ({ s.decidedBy L with report := false } : Lane).leaving .release .withdrawn := by
  unfold endedLane State.decidedBy
  rw [h]
  cases s.survey <;> rfl

/-- What the parts of a reset make of one lane, together. -/
theorem State.endedLane_stages (s : State) (mine : Port → Bool) (l : LaneId) (X : Lane)
    (hX : X = if (s.lane l).state = .pending ∧ s.ownedBy mine l = true then Lane.rest else (s.lane l).silenced mine)
    (own : Bool) (hown : (s.lane l).state ≠ .pending → own = s.ownedBy mine l) :
    (if s.ownedBy mine l = true ∧ ((s.lane l).state = .survey ∨ (s.lane l).state = .armed) then
      (if X.state = .survey then s.decidedBy X else X).leaving .release .withdrawn
    else if X.state = .running ∧ own = true then X.aborting else X) =
      if s.ownedBy mine l = true then endedLane s (s.lane l) else s.lane l := by
  cases hm : s.ownedBy mine l with
  | false =>
    have hl : X = s.lane l := by
      rw [hX, hm, if_neg (by simp), Lane.silenced, if_neg]
      intro hc
      rw [Bool.and_eq_true] at hc
      exact absurd (hm.symm.trans hc.1) Bool.false_ne_true
    rw [if_neg (by simp), if_neg, if_neg (by simp), hl]
    rintro ⟨h1, h2⟩
    rw [hl] at h1
    rw [hown (by simp [h1]), hm] at h2
    exact absurd h2 Bool.false_ne_true
  | true =>
    have hm' : mine (s.lane l).owner = true := hm
    rw [if_pos rfl]
    cases hst : (s.lane l).state with
    | free =>
      have hl : X = s.lane l := by simp [hX, hst, Lane.silenced]
      simp [hl, hst, endedLane]
    | pending =>
      have hl : X = Lane.rest := by simp [hX, hst, hm]
      simp [hl, endedLane, hst, Lane.rest]
    | survey =>
      have hl : X = { s.lane l with report := false } := by simp [hX, hst, Lane.silenced, hm']
      have hX1 : X.state = .survey := by rw [hl]; exact hst
      rw [if_pos ⟨rfl, .inl rfl⟩, if_pos hX1, hl, endedLane_survey s _ hst]
      unfold State.decidedBy
      cases s.survey with
      | none => rfl
      | some w => exact congrArg (fun L : Lane => L.leaving .release .withdrawn) ((s.lane l).decided_report w.mode)
    | armed =>
      have hl : X = { s.lane l with report := false } := by simp [hX, hst, Lane.silenced, hm']
      simp [hl, hst, endedLane, Lane.leaving]
    | running =>
      have hl : X = { s.lane l with report := false } := by simp [hX, hst, Lane.silenced, hm']
      simp [hl, hst, endedLane, hown, hm, Lane.aborting]
    | retiring =>
      have hl : X = { s.lane l with report := false } := by simp [hX, hst, Lane.silenced, hm']
      simp [hl, hst, endedLane]

/-- Every lane, list and engine after a reset has ended the lanes of `mine`, but for the retire walk that then starts
(R14, R114, R127). -/
theorem State.endLanes_eq (s : State) (h : LanesSound s) (mine : Port → Bool) : ∃ v : Vector Lane 15,
    s.endLanes mine = (((((s.withLanes v).withSurveyList (s.surveyList.filter fun l => !s.ownedBy mine l)).withSurvey
      (if s.survey.any fun w => s.ownedBy mine w.lane then none else s.survey)).withArmingList
      (s.armingList.filter fun l => !s.ownedBy mine l)).withRetireList
      (s.retireList ++ s.releasedBy mine)).startRetire ∧
    ∀ l, (s.withLanes v).lane l = if s.ownedBy mine l then endedLane s (s.lane l) else s.lane l := by
  obtain ⟨v2, e2, hv2⟩ := s.endPendingLanes mine h.pending
  have kept (l : LaneId) (st : LaneState) (h1 : st ≠ .pending) (h2 : st ≠ .free) :
      ((s.withLanes v2).lane l).state = st ↔ (s.lane l).state = st := by
    rw [hv2]
    split
    · rename_i hp; simp [Lane.rest, hp.1, Ne.symm h1, Ne.symm h2]
    · rw [Lane.silenced]; split <;> exact Iff.rfl
  have owned (l : LaneId) (hst : (s.lane l).state ≠ .pending) : (s.withLanes v2).ownedBy mine l = s.ownedBy mine l := by
    rw [State.ownedBy, hv2, if_neg fun hc => hst hc.1, Lane.silenced]
    split <;> rfl
  have rel : ((s.withLanes v2).withSurveyList (s.surveyList.filter fun l => !s.ownedBy mine l)).releasedBy mine =
      s.releasedBy mine := by
    refine List.filter_congr fun l _ => ?_
    rw [Bool.eq_iff_iff]
    simp only [Bool.and_eq_true, Bool.or_eq_true, decide_eq_true_eq, State.withSurveyList_lane,
      kept l .survey (by decide) (by decide), kept l .armed (by decide) (by decide)]
    refine and_congr_left fun hst => ?_
    rw [← owned l (by rcases hst with hst | hst <;> simp [hst])]
    rfl
  obtain ⟨v, e, hv⟩ := ((s.withLanes v2).withSurveyList
    (s.surveyList.filter fun l => !s.ownedBy mine l)).stopAndRelease mine fun l => by
      rw [State.withSurveyList_lane, kept l .survey (by decide) (by decide)]; exact h.surveyed l
  rw [rel] at e hv
  have survey : ((s.withLanes v2).withSurveyList (s.surveyList.filter fun l => !s.ownedBy mine l)).survey.any
      (fun w => ((s.withLanes v2).withSurveyList (s.surveyList.filter fun l => !s.ownedBy mine l)).ownedBy mine w.lane) =
      s.survey.any fun w => s.ownedBy mine w.lane := by
    cases hw : s.survey with
    | none => simp [hw]
    | some w =>
      have hst := (h.surveyed w.lane).1 (by simp [hw])
      have := owned w.lane (by simp [hst])
      rw [State.withSurveyList_survey, State.withLanes_survey, hw]
      exact this
  have arming : s.armingList.filter (fun l => !(s.releasedBy mine).contains l) =
      s.armingList.filter fun l => !s.ownedBy mine l :=
    List.filter_congr fun l hl => by
      congr 1
      rw [Bool.eq_iff_iff, List.contains_iff_mem, s.mem_releasedBy]
      simp [(h.armed l).1 hl]
  refine ⟨v, ?_, fun l => ?_⟩
  · unfold State.endLanes
    simp only [e2]
    refine (congrArg State.startRetire e).trans ?_
    rw [survey]
    simp only [State.withSurveyList_survey, State.withLanes_survey, State.withSurveyList_armingList,
      State.withLanes_armingList, arming]
    rfl
  · refine Eq.trans (hv l) ?_
    simp only [State.withSurveyList_lane, s.mem_releasedBy]
    exact s.endedLane_stages mine l _ (hv2 l) _ fun hst => owned l hst

end Sys2Proof.Machine
end

section
/-! The two reset commands (R179, R180), from a state whose lanes are sound: the lanes, lists and engines that a reset
leaves, the retire walk that it may start, and the rest of the state part by part.
-/

namespace Sys2Proof.Machine

/-! ## The retire walk that a reset starts -/

/-- The walk that an idle Retire Engine starts for a lane (R128). -/
def State.walkOf (s : State) (l : LaneId) : RetireWalk :=
  let m := s.modeRecord (s.lane l).finalMode
  ⟨l, some (s.lane l).rect.origin, m.clearing, m.cost⟩

/-- An engine at work is left; an idle one starts the walk of the lane at the head of its list, if there is one. -/
theorem State.startRetire_walk (s : State) : ∃ r, s.startRetire = s.withRetire r ∧
    (∀ w, s.retire = some w → r = some w) ∧ (s.retire = none → r = s.retireList.head?.map s.walkOf) := by
  unfold State.startRetire
  split
  · rename_i l rest h1 h2
    exact ⟨_, rfl, by simp [h1], by simp [h2, State.walkOf]⟩
  · rename_i h
    refine ⟨s.retire, rfl, by simp, fun h1 => ?_⟩
    cases h2 : s.retireList with
    | nil => simp [h1]
    | cons l rest => exact absurd h2 (by simpa [h1] using h l rest)

/-- A change of a port touches no lane, list or engine. -/
theorem LanesSound.setPort {s : State} (h : LanesSound s) (p : Port) (v : PortState) : LanesSound (s.setPort p v) := by
  cases p <;> exact ⟨h.pending, h.surveyed, h.armed, h.retiring, h.once, h.walked, h.rest, h.scanning, h.scanBand,
    h.unstarted, h.armedCount, h.runningIndex, h.retiredIndex, h.retiredKind, h.idleMark, h.rails, h.demand, h.halted⟩

/-- A lane that a reset releases keeps its rectangle for the retire walk. -/
theorem endedLane_rect (s : State) (L : Lane) (h : L.state ≠ .pending) : (endedLane s L).rect = L.rect := by
  unfold endedLane
  split
  · rfl
  · contradiction
  · cases s.survey with
    | none => rfl
    | some w => simp only [Lane.decided]; split <;> rfl
  all_goals rfl

/-- What a reset leaves once it has ended the lanes, the queue and the zones of `mine` (R14, R93, R114, R127). -/
theorem State.endOwned_whole (s : State) (h : LanesSound s) (mine : Port → Bool) (q : List Request) : ∃ v r z,
    s.endOwned mine q = { s with
      lanes := v, retire := r, zones := z, queue := q
      surveyList := s.surveyList.filter fun l => !s.ownedBy mine l
      survey := if s.survey.any fun w => s.ownedBy mine w.lane then none else s.survey
      armingList := s.armingList.filter fun l => !s.ownedBy mine l
      retireList := s.retireList ++ s.releasedBy mine } ∧
    (∀ l, (s.withLanes v).lane l = if s.ownedBy mine l then endedLane s (s.lane l) else s.lane l) ∧
    (∀ w, s.retire = some w → r = some w) ∧
    (s.retire = none → r = (s.releasedBy mine).head?.map fun l =>
      let m := s.modeRecord ((s.withLanes v).lane l).finalMode
      ⟨l, some ((s.lane l).rect.x0, (s.lane l).rect.y0), m.clearing, m.cost⟩) ∧
    ∀ k, (s.withZones z).zone k = if (s.zone k).any fun zone => mine zone.owner then none else s.zone k := by
  obtain ⟨v, e, hv⟩ := s.endLanes_eq h mine
  obtain ⟨r, er, hr1, hr2⟩ := State.startRetire_walk (((((s.withLanes v).withSurveyList
    (s.surveyList.filter fun l => !s.ownedBy mine l)).withSurvey
    (if s.survey.any fun w => s.ownedBy mine w.lane then none else s.survey)).withArmingList
    (s.armingList.filter fun l => !s.ownedBy mine l)).withRetireList (s.retireList ++ s.releasedBy mine))
  obtain ⟨z, ez, hz⟩ := s.endOwned_eq mine q
  rw [e, er] at ez
  rw [ez] at hz
  simp only [State.withQueue, State.withZones, State.withRetire, State.withRetireList, State.withArmingList,
    State.withSurvey, State.withSurveyList, State.withLanes] at ez
  refine ⟨v, r, z, ez, hv, hr1, fun hn => ?_, fun k => Eq.trans (by simp only [State.zone, State.withZones]) (hz k)⟩
  have hempty : s.retireList = [] := by
    have hw := h.walked
    rw [hn] at hw
    exact List.head?_eq_none_iff.1 hw.symm
  rw [hr2 hn, State.withRetireList_retireList, hempty, List.nil_append]
  refine Option.map_congr fun l hl => ?_
  obtain ⟨hm, hst⟩ := (s.mem_releasedBy mine l).1 (List.mem_of_head? hl)
  have hrect : ((s.withLanes v).lane l).rect = (s.lane l).rect := by
    rw [hv l, if_pos hm]
    exact endedLane_rect s _ (by rcases hst with hst | hst <;> simp [hst])
  simp only [State.walkOf, Rect.origin, State.withRetireList_lane, State.withArmingList_lane, State.withSurvey_lane,
    State.withSurveyList_lane, hrect, State.withRetireList_modeRecord, State.withArmingList_modeRecord,
    State.withSurvey_modeRecord, State.withSurveyList_modeRecord, State.withLanes_modeRecord]

theorem State.startRetire_queue (s : State) : s.startRetire.queue = s.queue := by
  obtain ⟨r, er, -⟩ := s.startRetire_eq
  rw [er, State.withRetire_queue]

/-- A reset's end of lanes leaves the queue. -/
theorem State.endLanes_queue (s : State) (h : LanesSound s) (mine : Port → Bool) :
    (s.endLanes mine).queue = s.queue := by
  obtain ⟨v, e, -⟩ := s.endLanes_eq h mine
  rw [e, State.startRetire_queue]
  simp only [State.withRetireList_queue, State.withArmingList_queue, State.withSurvey_queue, State.withSurveyList_queue,
    State.withLanes_queue]

/-- With no request queued a reconsideration does nothing. -/
theorem State.reconsider_empty (s : State) (h : s.queue = []) : s.reconsider = s := by
  have hn : s.allocateNext = none := by
    unfold State.allocateNext
    cases s.choose <;> simp [h]
  unfold State.reconsider reconsiderUpTo
  rw [hn]

/-! ## PORT_RESET -/

/-- An aborted load is a load of an owner that is reset (R38). -/
theorem TableUnit.aborted_port (u : TableUnit) (p : Port) : (u.aborted fun q => decide (q = p)) =
    if u.phase = .loading p true ∨ u.phase = .loading p false then
      { u with phase := .invalid .aborted, memory := [] } else u := by
  unfold TableUnit.aborted
  cases h : u.phase with
  | loading owner v =>
    by_cases ho : owner = p
    · cases v <;> simp [ho]
    · simp [ho]
  | _ => simp

/-- Settles O40. -/
theorem portReset : Obligations.PortReset := by
  intro p s ht hs
  obtain ⟨v, r, z, e, hv, hr1, hr2, hz⟩ := (s.setPort p (s.risen p 1)).endOwned_whole (hs.setPort p _)
    (fun q => decide (q = p)) (s.queue.filter fun q => !decide (q.port = p))
  have hrun : exec (.portReset p []) s = .next (effectPortReset p [] (s.setPort p (s.risen p 1))).settle := by
    rw [exec_request (i := .portReset p []) rfl s]
    exact congrArg (fun t : State => Host.Outcome.next t.settle) (s.transact_takes p (.fixed 0) [] _ _ ht rfl)
  rw [effectPortReset_eq, State.endLanes_queue _ (hs.setPort p _), TableUnit.aborted_port] at hrun
  simp only [State.setPort_queue, e] at hrun
  refine ⟨_, hrun, ?_, ?_, ?_, fun k => ?_, fun l => ?_, ?_, ?_⟩
  · simp only [decide_not]
    cases p <;> rfl
  · cases p <;> rfl
  · cases p <;> rfl
  · have h := hz k
    rw [State.setPort_zone] at h
    rw [← h, State.mapPort_eq, State.setPort_zone]
    rfl
  · have h := hv l
    rw [State.mapPort_eq, State.setPort_lane]
    refine Eq.trans (by rfl) (h.trans ?_)
    cases p <;> rfl
  · cases p <;> exact hr1
  · cases p <;> exact hr2

/-! ## PART_RESET -/

/-- A port once a PART_RESET has returned it to its starting point (R69, R180). -/
def PortState.restarted (q : PortState) (w h : Nat) : PortState := { q.cleared w h with flags := 0x800 }

/-- What a PART_RESET makes of the two ports of a state: both restart, and the other port's transaction is abandoned. -/
theorem State.restartPorts (s : State) (p : Port) (w h : Nat) :
    (((s.mapPorts fun q => q.cleared w h).mapPort (otherPort p) fun q => { q with txn := q.txn.abandoned }).raiseBoth
      .partReset) = (s.setPort p ((s.port p).restarted w h)).setPort (otherPort p)
        { (s.port (otherPort p)).restarted w h with txn := (s.port (otherPort p)).txn.abandoned } := by
  have hflag : BitVec.twoPow 12 Flag.partReset.bit = 0x800#12 := by decide
  cases p <;>
    simp [State.mapPorts, State.raiseBoth_eq, hflag, State.port, State.setPort, otherPort, PortState.restarted,
      PortState.cleared]

theorem Transaction.abandoned_eq (t : Transaction) :
    t.abandoned = if t = .closed then .closed else .discarded := by
  cases t <;> simp [Transaction.abandoned]

/-- A survey of any port at all is none that a PART_RESET leaves. -/
theorem State.survey_of_all (s : State) :
    (if s.survey.any fun w => s.ownedBy (fun _ => true) w.lane then none else s.survey) = none := by
  cases h : s.survey <;> simp [State.ownedBy]

/-- What a PART_RESET leaves once it has ended every lane, the queue and every zone (R14, R93, R114, R127). -/
theorem State.endAll_whole (s : State) (h : LanesSound s) : ∃ v r z,
    s.endOwned (fun _ => true) [] = { s with
      lanes := v, retire := r, zones := z, queue := [], surveyList := [], survey := none, armingList := []
      retireList := s.retireList ++ s.releasedBy fun _ => true } ∧
    (∀ l, (s.withLanes v).lane l = endedLane s (s.lane l)) ∧
    (∀ w, s.retire = some w → r = some w) ∧
    (s.retire = none → r = (s.releasedBy fun _ => true).head?.map fun l =>
      let m := s.modeRecord ((s.withLanes v).lane l).finalMode
      ⟨l, some ((s.lane l).rect.x0, (s.lane l).rect.y0), m.clearing, m.cost⟩) ∧
    ∀ k, (s.withZones z).zone k = none := by
  obtain ⟨v, r, z, e, hv, hr1, hr2, hz⟩ := s.endOwned_whole h (fun _ => true) []
  have hno (ls : List LaneId) : (ls.filter fun l => !s.ownedBy (fun _ => true) l) = [] := by simp [State.ownedBy]
  rw [hno, hno, s.survey_of_all] at e
  refine ⟨v, r, z, e, fun l => (hv l).trans (if_pos rfl), hr1, hr2, fun k => (hz k).trans ?_⟩
  cases s.zone k <;> rfl

theorem State.resetSettings_eq (s : State) : s.resetSettings = { s with
    zoneDuration := 1500, residueLimit := 64, wearLimit := 12, temp := ⟨.absent, none, none, none, 1, 60⟩
    table := s.table.aborted fun _ => true, supply := s.supply.partReset s.scan.scanning, scan := s.scan.partReset
    lastGrant := .survey, power := { s.power with dozeDelay := 50, resetWait := true } } := by
  unfold State.resetSettings
  simp only [State.withZoneDuration, State.withLimits, State.withTemp, State.withTable, State.withSupply, State.withScan,
    State.withLastGrant, State.withPower]
  rfl

/-- Settles O41. -/
theorem partReset : Obligations.PartReset := by
  intro p s ht hs
  obtain ⟨v, r, z, e, hv, hr1, hr2, hz⟩ := (s.setPort p (s.risen p 1)).endAll_whole (hs.setPort p _)
  have hrun : exec (.partReset p []) s = .next (effectPartReset p [] (s.setPort p (s.risen p 1))).settle := by
    rw [exec_request (i := .partReset p []) rfl s]
    exact congrArg (fun t : State => Host.Outcome.next t.settle) (s.transact_takes p (.fixed 0) [] _ _ ht rfl)
  rw [effectPartReset_eq, e, State.resetSettings_eq, State.restartPorts, State.reconsider_empty _ (by cases p <;> rfl)] at hrun
  refine ⟨_, hrun, ?_, ?_, ?_, fun k => ?_, fun l => ?_, ?_, ?_, ?_, ?_, ?_, ?_, ?_, ?_, ?_⟩
  · have htable : (s.setPort p (s.risen p 1)).table = s.table := by simp
    simp only [htable, TableUnit.aborted]
    cases hph : s.table.phase <;> cases p <;> rfl
  · cases p <;> rfl
  · rw [← Transaction.abandoned_eq]
    cases p <;> rfl
  · refine Eq.trans ?_ (hz k)
    simp only [State.setPort_zone]
    rfl
  · refine Eq.trans ?_ ((hv l).trans (by cases p <;> rfl))
    simp only [State.setPort_lane]
    rfl
  · cases p <;> exact hr1
  · cases p <;> exact hr2
  · refine fun h => Eq.trans (b := s.scan.partReset) (by cases p <;> rfl) ?_
    simp [Scanner.partReset, h]
  · refine fun h => Eq.trans (b := s.scan.partReset) (by cases p <;> rfl) ?_
    simp [Scanner.partReset, h]
  · refine fun h => Eq.trans (b := s.supply.partReset s.scan.scanning) (by cases p <;> rfl) ?_
    rw [Supply.partReset, h]
    rfl
  · refine fun h => Eq.trans (b := s.supply.partReset s.scan.scanning) (by cases p <;> rfl) ?_
    rcases h with h | ⟨h, hscan⟩
    · rw [Supply.partReset, h]
      rfl
    · rw [Supply.partReset, h, hscan]
      rfl
  · refine fun h hscan => Eq.trans (b := s.supply.partReset s.scan.scanning) (by cases p <;> rfl) ?_
    rw [Supply.partReset, h, hscan]
    rfl
  · refine fun h => Eq.trans (b := s.supply.partReset s.scan.scanning) (by cases p <;> rfl) ?_
    rcases h with h | h <;> simp [Supply.partReset, h, Config.defaultRise, Config.defaultPark, Config.defaultFall]
  · refine fun h => Eq.trans (b := s.supply.partReset s.scan.scanning) (by cases p <;> rfl) ?_
    rw [Supply.partReset, h]
    cases s.supply.fallTimer <;> rfl

end Sys2Proof.Machine
end

section
/-! Lanes that go on (R94, R110, R111, R114, R121, R123, R128): what an event may make of the lanes, their lists and
their engines so that every claim still names a lane that holds it, and the claims invariant across such an event.
-/

namespace Sys2Proof.Machine

/-! ## Rectangles and walks -/

theorem Rect.meets_comm (r q : Rect) : r.meets q = q.meets r := by
  rw [Bool.eq_iff_iff]
  simp only [Rect.meets, Bool.and_eq_true, decide_eq_true_eq]
  omega

theorem Rect.has_iff (r : Rect) (x : Pos) :
    r.has x = true ↔ (r.x0 ≤ x.1 ∧ x.1 ≤ r.x1) ∧ r.y0 ≤ x.2 ∧ x.2 ≤ r.y1 := by
  simp only [Rect.has, Bool.and_eq_true, decide_eq_true_eq]
  tauto

/-- Two rectangles that hold one position meet. -/
theorem Rect.meets_of_has {r q : Rect} {x : Pos} (hr : r.has x = true) (hq : q.has x = true) : r.meets q = true := by
  rw [Rect.has_iff] at hr hq
  simp only [Rect.meets, Bool.and_eq_true, decide_eq_true_eq]
  omega

theorem Rect.has_origin {r : Rect} (h : r.x0 ≤ r.x1 ∧ r.y0 ≤ r.y1) : r.has r.origin = true := by
  rw [Rect.has_iff]
  exact ⟨⟨le_rfl, h.1⟩, le_rfl, h.2⟩

/-- No position of a rectangle comes before its origin. -/
theorem Rect.origin_first {r : Rect} {x : Pos} (h : r.has x = true) : ¬ panelBefore x r.origin := by
  rw [Rect.has_iff] at h
  simp only [panelBefore, Rect.origin]
  omega

theorem Rect.nextPos_eq_some {r : Rect} {x y : Pos} (h : r.nextPos x = some y) :
    (x.1 < r.x1 ∧ y = (x.1 + 1, x.2)) ∨ (r.x1 ≤ x.1 ∧ x.2 < r.y1 ∧ y = (r.x0, x.2 + 1)) := by
  unfold Rect.nextPos at h
  split at h
  · exact .inl ⟨‹_›, (Option.some.inj h).symm⟩
  · split at h
    · exact .inr ⟨by omega, ‹_›, (Option.some.inj h).symm⟩
    · exact absurd h (by simp)

theorem Rect.nextPos_has {r : Rect} {x y : Pos} (h : r.nextPos x = some y) (hx : r.has x = true) : r.has y = true := by
  rw [Rect.has_iff] at hx ⊢
  rcases Rect.nextPos_eq_some h with ⟨_, rfl⟩ | ⟨_, _, rfl⟩ <;> simp only <;> omega

/-- The positions of a rectangle before the next one of a walk are those before this one, and this one (R98, R129). -/
theorem Rect.before_nextPos {r : Rect} {x y z : Pos} (h : r.nextPos x = some y) (hx : r.has x = true)
    (hz : r.has z = true) : panelBefore z y ↔ panelBefore z x ∨ z = x := by
  rw [Rect.has_iff] at hx hz
  simp only [panelBefore, Prod.ext_iff]
  rcases Rect.nextPos_eq_some h with ⟨_, rfl⟩ | ⟨_, _, rfl⟩ <;> simp only <;> omega

/-- A walk that has no next position has no position of its rectangle ahead. -/
theorem Rect.nextPos_last {r : Rect} {x z : Pos} (h : r.nextPos x = none) (hz : r.has z = true) :
    panelBefore z x ∨ z = x ∨ r.has x = false := by
  unfold Rect.nextPos at h
  split at h
  · exact absurd h (by simp)
  · split at h
    · exact absurd h (by simp)
    · rw [Rect.has_iff] at hz
      by_cases hx : r.has x = true
      · rw [Rect.has_iff] at hx
        simp only [panelBefore, Prod.ext_iff]
        omega
      · exact .inr (.inr (by simpa using hx))

/-! ## Claims of one lane -/

/-- No record names the lane. -/
def State.Unnamed (s : State) (l : LaneId) : Prop := ∀ x, x.1 < 2048 → (s.pixel x).lane ≠ some l

/-- Every listed record is the record of a position. -/
theorem State.listed_pixel (s : State) (h : Store.wf PixelRecord.swept s.pixels = true) (c : Nat × PixelRecord)
    (hc : c ∈ s.pixels) : ∃ x : Pos, x.1 < 2048 ∧ s.pixel x = c.2 := by
  refine ⟨(c.1 % 2048, c.1 / 2048), Nat.mod_lt _ (by decide), ?_⟩
  have ha : address (c.1 % 2048, c.1 / 2048) = c.1 := by
    simp only [address, Config.maxWidth]
    omega
  rw [State.pixel, ha, Store.read_mem PixelRecord.swept s.pixels none h c hc]

/-- The records that name a lane number 0 exactly when none does. -/
theorem State.countP_eq_zero_iff (s : State) (h : Store.wf PixelRecord.swept s.pixels = true) (l : LaneId) :
    (s.pixels.countP fun c => decide (c.2.lane = some l)) = 0 ↔ s.Unnamed l := by
  rw [List.countP_eq_zero]
  constructor
  · intro hn x _ hx
    rcases Store.read_eq_or_mem PixelRecord.swept s.pixels (address x) with hr | hr
    · rw [State.pixel, hr] at hx; exact absurd hx (by simp [PixelRecord.swept])
    · exact hn _ hr (by simpa [State.pixel] using hx)
  · intro hn c hc hl
    obtain ⟨x, hx, hp⟩ := s.listed_pixel h c hc
    exact hn x hx (by rw [hp]; simpa using hl)

/-! ## What an event may make of a lane -/

/-- What a lane keeps from its allocation to its end, with what its survey counted. -/
structure Lane.Alike (L M : Lane) : Prop where
  owner : M.owner = L.owner
  tag : M.tag = L.tag
  requestedMode : M.requestedMode = L.requestedMode
  policy : M.policy = L.policy
  rect : M.rect = L.rect
  claimed : M.claimed = L.claimed
  unknownClaimed : M.unknownClaimed = L.unknownClaimed
  busySkipped : L.policy = .hold → M.busySkipped = L.busySkipped

theorem Lane.Alike.refl (L : Lane) : L.Alike L := ⟨rfl, rfl, rfl, rfl, rfl, rfl, rfl, fun _ => rfl⟩

theorem Lane.Alike.trans {L M N : Lane} (h : L.Alike M) (k : M.Alike N) : L.Alike N :=
  ⟨k.owner.trans h.owner, k.tag.trans h.tag, k.requestedMode.trans h.requestedMode, k.policy.trans h.policy,
    k.rect.trans h.rect, k.claimed.trans h.claimed, k.unknownClaimed.trans h.unknownClaimed,
    fun hp => (k.busySkipped (h.policy.trans hp)).trans (h.busySkipped hp)⟩

/-- The busy skipped count of a HOLD lane stays 0 (R115). -/
theorem Lane.Alike.busy_of_hold {L M : Lane} (h : L.Alike M) (hb : L.policy = .hold → L.busySkipped = 0)
    (hp : M.policy = .hold) : M.busySkipped = 0 := by
  have hL : L.policy = .hold := h.policy ▸ hp
  rw [h.busySkipped hL, hb hL]

/-- The states of a lane whose survey has ended and which holds claims. -/
def LaneState.IsSurveyed (st : LaneState) : Prop := st = .armed ∨ st = .running ∨ st = .retiring

/-- A lane ends without a claim, stays in its state, moves among the states after its survey, or leaves its survey with
the decision made (R107). -/
inductive State.LaneMoves (s : State) (l : LaneId) (M : Lane) : Prop
  | ends (unnamed : s.Unnamed l) (free : M.state = .free) (alike : Lane.rest.Alike M)
  | stays (alike : (s.lane l).Alike M) (state : M.state = (s.lane l).state) (mode : M.finalMode = (s.lane l).finalMode)
  | goesOn (alike : (s.lane l).Alike M) (old : (s.lane l).state.IsSurveyed) (new : M.state.IsSurveyed)
      (mode : M.finalMode = (s.lane l).finalMode)
  | leavesSurvey (w : Survey) (survey : s.survey = some w) (lane : w.lane = l) (alike : (s.lane l).Alike M)
      (old : (s.lane l).state = .survey) (new : M.state.IsSurveyed)
      (mode : M.finalMode = ((s.lane l).decided w.mode).finalMode)

/-- The lanes that the lists and engines name are in the states that these say (R96, R97, R128). -/
structure EnginesHeld (s : State) : Prop where
  surveying : ∀ w, s.survey = some w → (s.lane w.lane).state = .survey
  retiring : ∀ w, s.retire = some w → (s.lane w.lane).state = .retiring
  pending : ∀ l ∈ s.surveyList, (s.lane l).state = .pending
  listed : ∀ l ∈ s.retireList, (s.lane l).state = .retiring

namespace EnginesHeld

variable {s : State}

theorem survey (h : EnginesHeld s) (w : Survey) (hw : s.survey = some w) : (s.lane w.lane).state ≠ .free := by
  simp [h.surveying w hw]

theorem retire (h : EnginesHeld s) (w : RetireWalk) (hw : s.retire = some w) : (s.lane w.lane).state ≠ .free := by
  simp [h.retiring w hw]

theorem surveyList (h : EnginesHeld s) (l : LaneId) (hl : l ∈ s.surveyList) : (s.lane l).state ≠ .free := by
  simp [h.pending l hl]

end EnginesHeld

/-- Where the lanes are sound the lists and engines name lanes in the states that they say. -/
theorem LanesSound.engines {s : State} (h : LanesSound s) : EnginesHeld s where
  surveying w hw := (h.surveyed w.lane).1 (by rw [hw]; rfl)
  retiring w hw := by
    have hhead : s.retireList.head? = some w.lane := by rw [← h.walked, hw]; rfl
    exact (h.retiring w.lane).1 (List.mem_of_head? hhead)
  pending l hl := (h.pending l).1 hl
  listed l hl := (h.retiring l).1 hl

/-- The lanes go on: no record changes, every lane moves as it may, and no engine or list gains a lane but the retire
list. -/
structure LanesGoOn (s t : State) : Prop where
  pixels : t.pixels = s.pixels
  table : t.table = s.table
  lane : ∀ l, s.LaneMoves l (t.lane l)
  surveyList : t.surveyList.Sublist s.surveyList
  survey : ∀ w, t.survey = some w → s.survey = some w
  retire : t.retire = s.retire ∨ (t.retire = none ∧ ∀ w, s.retire = some w → (t.lane w.lane).state = .free)
  engines : EnginesHeld t

theorem LaneState.IsSurveyed.ne_free {st : LaneState} (h : st.IsSurveyed) : st ≠ .free := by
  rcases h with rfl | rfl | rfl <;> decide

theorem LaneState.IsSurveyed.ne_survey {st : LaneState} (h : st.IsSurveyed) : st ≠ .survey := by
  rcases h with rfl | rfl | rfl <;> decide

theorem LaneState.IsSurveyed.ne_pending {st : LaneState} (h : st.IsSurveyed) : st ≠ .pending := by
  rcases h with rfl | rfl | rfl <;> decide

namespace LanesGoOn

variable {s t : State}

/-- A lane in use was in use, and is the lane it was. -/
theorem inUse (g : LanesGoOn s t) {l : LaneId} (h : (t.lane l).state ≠ .free) :
    (s.lane l).state ≠ .free ∧ (s.lane l).Alike (t.lane l) := by
  cases g.lane l with
  | ends _ free _ => exact absurd free h
  | stays alike state _ => exact ⟨state ▸ h, alike⟩
  | goesOn alike old _ _ => exact ⟨old.ne_free, alike⟩
  | leavesSurvey _ _ _ alike old _ _ => exact ⟨by simp [old], alike⟩

/-- A lane that a record names is the lane it was. -/
theorem named (g : LanesGoOn s t) {l : LaneId} {x : Pos} (hx : x.1 < 2048) (hn : (s.pixel x).lane = some l) :
    (s.lane l).Alike (t.lane l) := by
  cases g.lane l with
  | ends unnamed _ _ => exact absurd hn (unnamed x hx)
  | stays alike _ _ => exact alike
  | goesOn alike _ _ _ => exact alike
  | leavesSurvey _ _ _ alike _ _ _ => exact alike

theorem pixel (g : LanesGoOn s t) (x : Pos) : t.pixel x = s.pixel x := by rw [State.pixel, g.pixels]; rfl

theorem modeRecord (g : LanesGoOn s t) (m : Nat) : t.modeRecord m = s.modeRecord m := by
  rw [State.modeRecord, g.table]; rfl

/-- A lane PENDING or in SURVEY was in that state. -/
theorem early (g : LanesGoOn s t) {l : LaneId} (h : (t.lane l).state = .pending ∨ (t.lane l).state = .survey) :
    (s.lane l).state = (t.lane l).state := by
  cases g.lane l with
  | ends _ free _ => simp [free] at h
  | stays _ state _ => exact state.symm
  | goesOn _ _ new _ => rcases h with h | h <;> simp [h, LaneState.IsSurveyed] at new
  | leavesSurvey _ _ _ _ _ new _ => rcases h with h | h <;> simp [h, LaneState.IsSurveyed] at new

/-- A lane that is past PENDING was past PENDING. -/
theorem late (g : LanesGoOn s t) {l : LaneId} (hf : (t.lane l).state ≠ .free) (hp : (t.lane l).state ≠ .pending) :
    (s.lane l).state ≠ .free ∧ (s.lane l).state ≠ .pending := by
  refine ⟨(g.inUse hf).1, ?_⟩
  cases g.lane l with
  | ends _ free _ => exact absurd free hf
  | stays _ state _ => exact state ▸ hp
  | goesOn _ old _ _ => exact old.ne_pending
  | leavesSurvey _ _ _ _ old _ _ => simp [old]

end LanesGoOn

/-! ## The decision -/

/-- A mode with a promote target is a mode of the table. -/
theorem State.modeRecord_promote (s : State) (n : Nat) (h : (s.modeRecord n).promote ≠ none) :
    ∃ t, s.table.table = some t ∧ s.modeRecord n ∈ t.modes := by
  unfold State.modeRecord at h ⊢
  split at h
  · rename_i m hm
    obtain ⟨t, ht, hmem⟩ := Option.bind_eq_some_iff.1 hm
    exact ⟨t, ht, List.mem_of_getElem? hmem⟩
  · exact absurd rfl h

/-- The final mode that the decision gives a lane with a claimed UNKNOWN pixel accepts unknown (R7, R33, R107). -/
theorem ClaimsSound.decided_accepts {s : State} (h : ClaimsSound s) {w : Survey} (hw : s.survey = some w) {x : Pos}
    (hx : x.1 < 2048) (hn : (s.pixel x).lane = some w.lane) (hu : (s.pixel x).shown = none) :
    (s.modeRecord ((s.lane w.lane).decided w.mode).finalMode).acceptsUnknown = true := by
  obtain ⟨hcount, hmode⟩ := h.unknownSurveyed w x hw hx hn hu
  have hm := h.surveyMode w hw
  cases hp : w.mode.promote with
  | none =>
    have hacc : w.mode.acceptsUnknown = true := hmode.resolve_right fun hne => hne hp
    have hdec : promotes w.mode (s.lane w.lane) = false := by simp [promotes, hp]
    rw [Lane.decided, hdec]
    simpa [hm] using hacc
  | some y =>
    have hdec : promotes w.mode (s.lane w.lane) = true := by simp [promotes, hp, hcount]
    rw [Lane.decided, hdec]
    obtain ⟨t, ht, hmem⟩ := s.modeRecord_promote (s.lane w.lane).requestedMode (by rw [← hm, hp]; simp)
    rw [← hm] at hmem
    simpa [hp] using h.promoteTargets t w.mode y ht hmem hp

/-- The claims invariant holds where the lanes have gone on. -/
theorem ClaimsSound.goOn {s t : State} (h : ClaimsSound s) (g : LanesGoOn s t) :
    ClaimsSound t where
  named x l hx hn := by
    rw [g.pixel] at hn
    obtain ⟨hin, hst⟩ := h.named x l hx hn
    refine ⟨by rwa [(g.named hx hn).rect], ?_⟩
    cases g.lane l with
    | ends unnamed _ _ => exact absurd hn (unnamed x hx)
    | stays _ state _ => rwa [state]
    | goesOn _ _ new _ => exact .inr new
    | leavesSurvey _ _ _ _ _ new _ => exact .inr new
  surveyed w hw := by
    obtain ⟨hpos, hbefore⟩ := h.surveyed w (g.survey w hw)
    rw [(g.inUse (g.engines.survey w hw)).2.rect]
    exact ⟨hpos, fun x z hx hn hz => hbefore x z hx (by rwa [g.pixel] at hn) hz⟩
  retired w hw := by
    have hold : s.retire = some w := by
      rcases g.retire with hr | ⟨hr, -⟩
      · rw [← hr, hw]
      · rw [hr] at hw; exact absurd hw (by simp)
    obtain ⟨hpos, hahead⟩ := h.retired w hold
    rw [(g.inUse (g.engines.retire w hw)).2.rect]
    exact ⟨hpos, fun x hx hn => hahead x hx (by rwa [g.pixel] at hn)⟩
  counted l hl hr := by
    obtain ⟨hold, alike⟩ := g.inUse hl
    rw [alike.claimed, g.pixels]
    refine h.counted l hold fun hc => ?_
    rcases g.retire with he | ⟨-, he⟩
    · exact hr (by rw [he, hc])
    · obtain ⟨w, hw, rfl⟩ := Option.map_eq_some_iff.1 hc
      exact hl (he w hw)
  holdApart l k hlk hl hk hpl hpk := by
    obtain ⟨hl', al⟩ := g.inUse hl
    obtain ⟨hk', ak⟩ := g.inUse hk
    rw [al.rect, ak.rect]
    exact h.holdApart l k hlk hl' hk' (al.policy ▸ hpl) (ak.policy ▸ hpk)
  holdBusy l hp := by
    cases g.lane l with
    | ends _ _ alike => exact alike.busySkipped rfl
    | stays alike _ _ => exact alike.busy_of_hold (h.holdBusy l) hp
    | goesOn alike _ _ _ => exact alike.busy_of_hold (h.holdBusy l) hp
    | leavesSurvey _ _ _ alike _ _ _ => exact alike.busy_of_hold (h.holdBusy l) hp
  holdFirst l k hlk hl hp hkf hkp := by
    have hlf : (t.lane l).state ≠ .free := by rcases hl with hl | hl <;> simp [hl]
    have al := (g.inUse hlf).2
    have ak := (g.inUse hkf).2
    obtain ⟨hkf', hkp'⟩ := g.late hkf hkp
    rw [al.rect, ak.rect]
    exact h.holdFirst l k hlk (by rw [g.early hl]; exact hl) (al.policy ▸ hp) hkf' hkp'
  holdOrder := by
    refine (h.holdOrder.sublist g.surveyList).imp_of_mem fun {k l} hk hl hkl hp => ?_
    have al := (g.inUse (g.engines.surveyList l hl)).2
    have ak := (g.inUse (g.engines.surveyList k hk)).2
    rw [al.rect, ak.rect]
    exact hkl (al.policy ▸ hp)
  tableHeld l hl := by rw [g.table]; exact h.tableHeld l (g.inUse hl).1
  promoteTargets u m x hu hm hp := by
    rw [g.modeRecord]
    exact h.promoteTargets u m x (by rwa [g.table] at hu) hm hp
  surveyMode w hw := by
    rw [g.modeRecord, (g.inUse (g.engines.survey w hw)).2.requestedMode]
    exact h.surveyMode w (g.survey w hw)
  unknownSurveyed w x hw hx hn hu := by
    rw [g.pixel] at hn hu
    rw [(g.named hx hn).unknownClaimed]
    exact h.unknownSurveyed w x (g.survey w hw) hx hn hu
  unknownAccepted x l hx hn hu hst := by
    rw [g.pixel] at hn hu
    rw [g.modeRecord]
    cases g.lane l with
    | ends unnamed _ _ => exact absurd hn (unnamed x hx)
    | stays _ state mode => rw [mode]; exact h.unknownAccepted x l hx hn hu (state ▸ hst)
    | goesOn _ old _ mode => rw [mode]; exact h.unknownAccepted x l hx hn hu old.ne_survey
    | leavesSurvey w survey lane _ _ _ mode =>
      subst lane
      rw [mode]
      exact h.decided_accepts survey hx hn hu

end Sys2Proof.Machine
end

section
/-! The places of the panel (R52, R55, R59, R70, R73, R86) and the claims together: one invariant of the state, what
leaves it as it stands, and that a reconsideration and the start of a retire walk keep it.
-/

namespace Sys2Proof.Machine

/-! ## The invariant -/

/-- The stores, claims, tags and places of the panel are sound, and the lists and engines name lanes in use. -/
structure Placed (s : State) : Prop where
  stores : StoresSound s
  engines : EnginesHeld s
  claims : ClaimsSound s
  tags : TagsSound s
  geometry : GeometrySound s

theorem Sound.placed {s : State} (h : Sound s) : Placed s :=
  ⟨h.stores, h.lanes.engines, h.claims, h.tags, h.geometry⟩

/-- The lanes go on, requests and zones may go, and nothing else that holds a place of the panel changes. -/
structure PlacesGoOn (s t : State) : Prop extends LanesGoOn s t where
  width : t.width = s.width
  height : t.height = s.height
  image : t.image = s.image
  queue : t.queue.Sublist s.queue
  stream : ∀ p, (t.port p).stream = (s.port p).stream
  ctx : ∀ p, (t.port p).ctx = (s.port p).ctx
  sweep : t.power.geometrySweep = s.power.geometrySweep
  zone : ∀ z v, t.zone z = some v → s.zone z = some v
  mark : t.scan.markRow = s.scan.markRow ∧ t.scan.pendingMark = s.scan.pendingMark

/-- A lane that goes on keeps its rectangle, or ends with that of rest. -/
theorem LanesGoOn.rect_fits {s t : State} (g : LanesGoOn s t) (l : LaneId) {w h : Nat} (hw : 64 ≤ w) (hh : 64 ≤ h)
    (hf : (s.lane l).rect.Fits w h) : (t.lane l).rect.Fits w h := by
  cases g.lane l with
  | ends _ _ alike => rw [alike.rect]; exact ⟨by decide, by simp [Lane.rest]; omega⟩
  | stays alike _ _ => rwa [alike.rect]
  | goesOn alike _ _ _ => rwa [alike.rect]
  | leavesSurvey _ _ _ alike _ _ _ => rwa [alike.rect]

/-- The tags of a port's lanes in use. -/
def State.laneTags (s : State) (p : Port) : List Nat :=
  (laneIds.filter fun l => decide ((s.lane l).state ≠ .free) && decide ((s.lane l).owner = p)).map fun l => (s.lane l).tag

/-- Lanes that go on bring no tag. -/
theorem LanesGoOn.laneTags {s t : State} (g : LanesGoOn s t) (p : Port) : (t.laneTags p).Sublist (s.laneTags p) := by
  have hsub : (laneIds.filter fun l => decide ((t.lane l).state ≠ .free) && decide ((t.lane l).owner = p)).Sublist
      (laneIds.filter fun l => decide ((s.lane l).state ≠ .free) && decide ((s.lane l).owner = p)) := by
    refine List.monotone_filter_right laneIds fun l hl => ?_
    simp only [Bool.and_eq_true, decide_eq_true_eq] at hl ⊢
    obtain ⟨hf, alike⟩ := g.inUse hl.1
    exact ⟨hf, alike.owner ▸ hl.2⟩
  unfold State.laneTags
  rw [List.map_congr_left fun l hl => (g.inUse (l := l) (by simp at hl; exact hl.1)).2.tag]
  exact hsub.map _

theorem TagsSound.of_sublist {s t : State} (h : TagsSound s)
    (hs : ∀ p, (t.streamRequests p).Sublist (s.streamRequests p)) (hq : t.queue.Sublist s.queue)
    (hl : ∀ p, (t.laneTags p).Sublist (s.laneTags p)) : TagsSound t := fun p =>
  (h p).sublist ((((hs p).map _).append ((hq.filter _).map _)).append (hl p))

theorem Placed.goOn {s t : State} (h : Placed s) (g : PlacesGoOn s t) : Placed t where
  stores := h.stores.congr g.image g.pixels
  engines := g.engines
  claims := h.claims.goOn g.toLanesGoOn
  tags := h.tags.of_sublist (fun p => by rw [State.streamRequests, g.stream]; exact .refl _) g.queue g.laneTags
  geometry := by
    have q := h.geometry
    refine ⟨by rw [g.width]; exact q.width, by rw [g.height]; exact q.height, fun hs p => ?_, fun p e he => ?_,
      fun r hr => ?_, fun z v hv => ?_, fun l => ?_, ?_⟩
    · rw [g.ctx, g.width, g.height]; exact q.contexts (g.sweep ▸ hs) p
    · rw [g.width, g.height]; exact q.entries p e (by rwa [g.stream] at he)
    · rw [g.width, g.height]; exact q.requests r (g.queue.subset hr)
    · rw [g.width, g.height]; exact q.zones z v (g.zone z v hv)
    · rw [g.width, g.height]; exact g.rect_fits l q.width.1 q.height.1 (q.lanes l)
    · rw [g.height, g.mark.1, g.mark.2]; exact q.mark

/-- No lane, list or engine has changed. -/
theorem LanesGoOn.of_same {s t : State} (h : EnginesHeld s) (pixels : t.pixels = s.pixels) (table : t.table = s.table)
    (lane : ∀ l, t.lane l = s.lane l) (surveyList : t.surveyList = s.surveyList) (survey : t.survey = s.survey)
    (retireList : t.retireList = s.retireList) (retire : t.retire = s.retire) : LanesGoOn s t := by
  refine ⟨pixels, table, fun l => ?_, by rw [surveyList], fun w hw => by rwa [survey] at hw, .inl retire, ?_⟩
  · rw [lane]; exact .stays (.refl _) rfl rfl
  · refine ⟨fun w hw => ?_, fun w hw => ?_, fun l hl => ?_, fun l hl => ?_⟩ <;> rw [lane]
    · exact h.surveying w (by rwa [survey] at hw)
    · exact h.retiring w (by rwa [retire] at hw)
    · exact h.pending l (by rwa [surveyList] at hl)
    · exact h.listed l (by rwa [retireList] at hl)

/-- A step of the link moves nothing that holds a place. -/
theorem Placed.ofLink {s t : State} (h : Placed s) (l : LinkOnly s t) : Placed t :=
  h.goOn { LanesGoOn.of_same h.engines l.pixels l.table l.lane l.surveyList l.survey l.retireList l.retire with
    width := l.width, height := l.height, image := l.image, queue := by rw [l.queue], stream := l.stream, ctx := l.ctx
    sweep := l.sweep, zone := fun z v hv => by rwa [l.zone] at hv, mark := by rw [l.scan]; exact ⟨rfl, rfl⟩ }

/-- Lanes that go on within the operations over lanes leave every place as it stands. -/
theorem Placed.ofLanes {s t : State} (h : Placed s) (l : LaneOnly s t) (g : LanesGoOn s t)
    (hq : t.queue.Sublist s.queue) : Placed t :=
  h.goOn { g with
    width := l.width, height := l.height, image := l.image, queue := hq, stream := l.stream, ctx := l.ctx
    sweep := by rw [l.power], zone := fun z v hv => by rwa [l.zone] at hv
    mark := by rw [l.scan]; exact ⟨rfl, rfl⟩ }

namespace Placed

variable {s : State}

/-- A change of fields that hold no place, and of the queue, which may lose requests, and the zones, which may go. -/
theorem ofBody (h : Placed s) {t : State} (body : t = { s with
      lastGrant := t.lastGrant, temp := t.temp, queue := t.queue, zones := t.zones, zoneDuration := t.zoneDuration
      residueLimit := t.residueLimit, wearLimit := t.wearLimit, armingList := t.armingList, supply := t.supply
      power := t.power, pending := t.pending })
    (queue : t.queue.Sublist s.queue) (sweep : t.power.geometrySweep = s.power.geometrySweep)
    (zone : ∀ z v, t.zone z = some v → s.zone z = some v) : Placed t := by
  have lane (l : LaneId) : t.lane l = s.lane l := by rw [body]; rfl
  have port (p : Port) : t.port p = s.port p := by rw [body]; cases p <;> rfl
  exact h.goOn { LanesGoOn.of_same h.engines (by rw [body]) (by rw [body]) lane (by rw [body]) (by rw [body])
      (by rw [body]) (by rw [body]) with
    width := by rw [body]
    height := by rw [body]
    image := by rw [body]
    queue := queue
    stream := fun p => by rw [port]
    ctx := fun p => by rw [port]
    sweep := sweep
    zone := zone
    mark := by rw [body]; exact ⟨rfl, rfl⟩ }

theorem withSupply (h : Placed s) (v : Supply) : Placed (s.withSupply v) := h.ofBody rfl (.refl _) rfl fun _ _ hz => hz

theorem withTemp (h : Placed s) (v : TempUnit) : Placed (s.withTemp v) := h.ofBody rfl (.refl _) rfl fun _ _ hz => hz

theorem withLimits (h : Placed s) (r w : Nat) : Placed (s.withLimits r w) :=
  h.ofBody rfl (.refl _) rfl fun _ _ hz => hz

theorem withZoneDuration (h : Placed s) (v : Nat) : Placed (s.withZoneDuration v) :=
  h.ofBody rfl (.refl _) rfl fun _ _ hz => hz

theorem withLastGrant (h : Placed s) (v : Requester) : Placed (s.withLastGrant v) :=
  h.ofBody rfl (.refl _) rfl fun _ _ hz => hz

theorem withArmingList (h : Placed s) (v : List LaneId) : Placed (s.withArmingList v) :=
  h.ofBody rfl (.refl _) rfl fun _ _ hz => hz

theorem withPending (h : Placed s) (v : List Instr) : Placed (s.withPending v) :=
  h.ofBody rfl (.refl _) rfl fun _ _ hz => hz

theorem withPower (h : Placed s) (v : PowerUnit) (hv : v.geometrySweep = s.power.geometrySweep) :
    Placed (s.withPower v) := h.ofBody rfl (.refl _) hv fun _ _ hz => hz

theorem withQueue (h : Placed s) (v : List Request) (hv : v.Sublist s.queue) : Placed (s.withQueue v) :=
  h.ofBody rfl hv rfl fun _ _ hz => hz

/-- Zones that are freed leave the others. -/
theorem withZones (h : Placed s) (v : Vector (Option Zone) 4)
    (hv : ∀ k w, (s.withZones v).zone k = some w → s.zone k = some w) : Placed (s.withZones v) :=
  h.ofBody rfl (.refl _) rfl hv

theorem freeZone (h : Placed s) (z : Fin 4) : Placed (s.setZone z none) := by
  refine h.ofBody rfl (.refl _) rfl fun k v hv => ?_
  rw [State.setZone_zone] at hv
  split at hv
  · exact absurd hv (by simp)
  · exact hv

theorem setZone (h : Placed s) (z : Fin 4) (v : Zone) (hv : v.rect.Fits s.width s.height) :
    Placed (s.setZone z (some v)) where
  stores := h.stores.congr rfl rfl
  engines := ⟨h.engines.surveying, h.engines.retiring, h.engines.pending, h.engines.listed⟩
  claims := h.claims.goOn (.of_same h.engines rfl rfl (fun _ => rfl) rfl rfl rfl rfl)
  tags := h.tags.of_sublist (fun p => by simp [State.streamRequests]) (.refl _) (fun p => .refl _)
  geometry := by
    have q := h.geometry
    refine ⟨q.width, q.height, fun hs p => by simpa using q.contexts hs p, fun p => by simpa using q.entries p,
      q.requests, fun k w hw => ?_, q.lanes, q.mark⟩
    rw [State.setZone_zone] at hw
    split at hw
    · cases hw; exact hv
    · exact q.zones k w hw

/-- A change of the scan keeps the frame-mark rows inside the panel. -/
theorem withScan (h : Placed s) (v : Scanner)
    (hv : v.markRow < s.height ∧ ∀ r, v.pendingMark = some r → r < s.height) : Placed (s.withScan v) where
  stores := h.stores.congr rfl rfl
  engines := ⟨h.engines.surveying, h.engines.retiring, h.engines.pending, h.engines.listed⟩
  claims := h.claims.goOn (.of_same h.engines rfl rfl (fun _ => rfl) rfl rfl rfl rfl)
  tags := h.tags.of_sublist (fun p => by simp [State.streamRequests]) (.refl _) (fun p => .refl _)
  geometry := by
    have q := h.geometry
    exact ⟨q.width, q.height, fun hs p => by simpa using q.contexts hs p, fun p => by simpa using q.entries p,
      q.requests, q.zones, q.lanes, hv⟩

theorem setLevel (h : Placed s) (x : Pos) (v : Level) : Placed (s.setLevel x v) where
  stores := h.stores.setLevel x v
  engines := ⟨h.engines.surveying, h.engines.retiring, h.engines.pending, h.engines.listed⟩
  claims := h.claims.goOn (.of_same h.engines rfl rfl (fun _ => rfl) rfl rfl rfl rfl)
  tags := h.tags.of_sublist (fun p => by simp [State.streamRequests, State.setLevel]) (.refl _) (fun p => .refl _)
  geometry := by
    have q := h.geometry
    exact ⟨q.width, q.height, fun hs p => by simpa [State.setLevel] using q.contexts hs p,
      fun p => by simpa [State.setLevel] using q.entries p, q.requests, q.zones, q.lanes, q.mark⟩

/-- A change of a port whose stream brings no request, and whose entries and context fit the panel. -/
theorem setPort (h : Placed s) (p : Port) (v : PortState)
    (hr : (v.stream.filterMap Entry.request).Sublist (s.streamRequests p))
    (he : ∀ e ∈ v.stream, e.Fits s.width s.height)
    (hc : s.power.geometrySweep = false → v.ctx.Fits s.width s.height) : Placed (s.setPort p v) where
  stores := h.stores.congr (by simp) (by simp)
  engines := by
    have q := h.engines
    exact ⟨by simpa using q.surveying, by simpa using q.retiring, by simpa using q.pending, by simpa using q.listed⟩
  claims := h.claims.goOn (.of_same h.engines (by simp) (by simp) (by simp) (by simp) (by simp) (by simp) (by simp))
  tags := by
    refine h.tags.of_sublist (fun k => ?_) (by simp) (fun k => by simp [State.laneTags])
    rw [State.streamRequests, State.setPort_port]
    split
    · rename_i hk; rw [hk]; exact hr
    · exact .refl _
  geometry := by
    have q := h.geometry
    refine ⟨by simpa using q.width, by simpa using q.height, fun hs k => ?_, fun k e hm => ?_, by simpa using q.requests,
      by simpa using q.zones, by simpa using q.lanes, by simpa using q.mark⟩
    · rw [State.setPort_port, State.setPort_width, State.setPort_height]
      rw [State.setPort_power] at hs
      split
      · exact hc hs
      · exact q.contexts hs k
    · rw [State.setPort_port] at hm
      rw [State.setPort_width, State.setPort_height]
      split at hm
      · exact he e hm
      · exact q.entries k e hm

/-- A change of a port that leaves its stream. -/
theorem setContext (h : Placed s) (p : Port) (v : PortState) (hs : v.stream = (s.port p).stream)
    (hc : s.power.geometrySweep = false → v.ctx.Fits s.width s.height) : Placed (s.setPort p v) :=
  h.setPort p v (by rw [hs]; exact .refl _) (by rw [hs]; exact h.geometry.entries p) hc

end Placed

end Sys2Proof.Machine
end

section
/-! Requests (R59, R72, R75, R77 to R79, R95): a request that enters a stream, the queue or a lane keeps the places and
claims sound; so does a reconsideration, and the start of a retire walk.
-/

namespace Sys2Proof.Machine

/-! ## Entries of a stream -/

/-- The tag of a port's request is one of its tags (R73). -/
theorem State.tagBusy_iff (s : State) (p : Port) (tag : Nat) : s.tagBusy p tag = true ↔ tag ∈ s.tagsOf p := by
  simp only [State.tagBusy, State.tagsOf, Bool.or_eq_true, List.any_eq_true, List.mem_append, List.mem_map,
    List.mem_filter, Bool.and_eq_true, decide_eq_true_eq, and_assoc]

theorem State.streamRequests_setPort (s : State) (p k : Port) (v : PortState) :
    (s.setPort p v).streamRequests k = if k = p then v.stream.filterMap Entry.request else s.streamRequests k := by
  rw [State.streamRequests, State.setPort_port]
  split <;> rfl

/-- The tags of a port after a change of a port: those of its stream, then those of the queue and the lanes as before. -/
theorem State.tagsOf_setPort (s : State) (p k : Port) (v : PortState) : (s.setPort p v).tagsOf k =
    (if k = p then v.stream.filterMap Entry.request else s.streamRequests k).map Request.tag ++
      (s.queue.filter fun q => decide (q.port = k)).map Request.tag ++ s.laneTags k := by
  rw [State.tagsOf, State.streamRequests_setPort]
  simp [State.laneTags]

namespace Placed

variable {s : State}

/-- A pixel or a fill inside the panel joins a stream. -/
theorem pushEntry (h : Placed s) (p : Port) (e : Entry) (hr : e.request = none) (he : e.Fits s.width s.height) :
    Placed (s.pushEntry p e) := by
  refine h.setPort p _ ?_ (fun x hx => ?_) fun hs => h.geometry.contexts hs p
  · rw [List.filterMap_append]
    simp [hr, State.streamRequests]
  · rcases List.mem_append.1 hx with hx | hx
    · exact h.geometry.entries p x hx
    · rw [List.mem_singleton.1 hx]; exact he

/-- A request inside the panel joins its port's stream with a tag that the port does not use (R59, R72). -/
theorem pushSubmit (h : Placed s) (p : Port) (q : Request) (hq : q.rect.Fits s.width s.height)
    (ht : s.tagBusy p q.tag = false) : Placed (s.pushEntry p (.submit q)) where
  stores := h.stores.congr (by simp [State.pushEntry]) (by simp [State.pushEntry])
  engines := by
    have e := h.engines
    exact ⟨by simpa [State.pushEntry] using e.surveying, by simpa [State.pushEntry] using e.retiring,
      by simpa [State.pushEntry] using e.pending, by simpa [State.pushEntry] using e.listed⟩
  claims := h.claims.goOn (.of_same h.engines (by simp [State.pushEntry]) (by simp [State.pushEntry])
    (by simp [State.pushEntry]) (by simp [State.pushEntry]) (by simp [State.pushEntry]) (by simp [State.pushEntry])
    (by simp [State.pushEntry]))
  tags k := by
    rw [State.pushEntry, State.mapPort_eq, State.tagsOf_setPort]
    by_cases hk : k = p
    · subst hk
      have hn : q.tag ∉ s.tagsOf k := fun hm => by
        rw [(s.tagBusy_iff k q.tag).2 hm] at ht; exact absurd ht (by simp)
      have hperm : List.Perm (q.tag :: s.tagsOf k)
          (((s.port k).stream ++ [Entry.submit q]).filterMap Entry.request |>.map Request.tag |>.append
            ((s.queue.filter fun q => decide (q.port = k)).map Request.tag) |>.append (s.laneTags k)) := by
        rw [List.filterMap_append, List.map_append]
        simp only [List.append_eq, State.tagsOf, State.laneTags, State.streamRequests, List.append_assoc]
        exact (List.perm_middle (l₁ := ((s.port k).stream.filterMap Entry.request).map Request.tag)).symm
      rw [if_pos rfl]
      exact hperm.nodup_iff.1 (List.nodup_cons.2 ⟨hn, h.tags k⟩)
    · rw [if_neg hk]; exact h.tags k
  geometry := by
    have g := h.geometry
    refine ⟨by simpa [State.pushEntry] using g.width, by simpa [State.pushEntry] using g.height, fun hs k => ?_,
      fun k e hm => ?_, by simpa [State.pushEntry] using g.requests, by simpa [State.pushEntry] using g.zones,
      by simpa [State.pushEntry] using g.lanes, by simpa [State.pushEntry] using g.mark⟩
    · simp only [State.pushEntry, State.mapPort_eq, State.setPort_power] at hs
      simp only [State.pushEntry, State.mapPort_eq, State.setPort_port, State.setPort_width, State.setPort_height]
      split
      · rename_i hk; subst hk; exact g.contexts hs k
      · exact g.contexts hs k
    · simp only [State.pushEntry, State.mapPort_eq, State.setPort_port] at hm
      simp only [State.pushEntry, State.mapPort_eq, State.setPort_width, State.setPort_height]
      split at hm
      · rename_i hk
        subst hk
        rcases List.mem_append.1 hm with hm | hm
        · exact g.entries k e hm
        · rw [List.mem_singleton.1 hm]; exact hq
      · exact g.entries k e hm

/-- The head of a stream, a request of its port, passes to the tail of the queue (R60, R75). -/
theorem enqueue (h : Placed s) (p : Port) (q : Request) (rest : List Entry)
    (hd : (s.port p).stream = .submit q :: rest) (hp : q.port = p) :
    Placed ((s.mapPort p fun x => { x with stream := rest }).withQueue (s.queue ++ [q])) := by
  have hr : Placed (s.mapPort p fun x => { x with stream := rest }) := by
    refine h.setPort p _ ?_ (fun e he => h.geometry.entries p e (by rw [hd]; exact List.mem_cons_of_mem _ he))
      fun hs => h.geometry.contexts hs p
    rw [State.streamRequests, hd]
    exact (List.sublist_cons_self _ rest).filterMap _
  have fits : q.rect.Fits s.width s.height := h.geometry.entries p (.submit q) (by rw [hd]; simp)
  refine ⟨hr.stores.congr rfl rfl, ⟨hr.engines.surveying, hr.engines.retiring, hr.engines.pending, hr.engines.listed⟩,
    hr.claims.goOn (.of_same hr.engines rfl rfl (fun _ => rfl) rfl rfl rfl rfl), fun k => ?_, ?_⟩
  · have hold := h.tags k
    have hstream : s.streamRequests p = q :: rest.filterMap Entry.request := by rw [State.streamRequests, hd]; rfl
    have htags : ((s.mapPort p fun x => { x with stream := rest }).withQueue (s.queue ++ [q])).tagsOf k =
        (if k = p then rest.filterMap Entry.request else s.streamRequests k).map Request.tag ++
          ((s.queue ++ [q]).filter fun q => decide (q.port = k)).map Request.tag ++ s.laneTags k := by
      rw [State.mapPort_eq, ← State.streamRequests_setPort s p k { s.port p with stream := rest }]
      simp [State.tagsOf, State.laneTags, State.streamRequests]
    rw [htags]
    by_cases hk : k = p
    · subst hk
      rw [if_pos rfl, List.filter_append, List.map_append]
      have hperm : List.Perm (s.tagsOf k) ((rest.filterMap Entry.request).map Request.tag ++
          ((s.queue.filter fun q => decide (q.port = k)).map Request.tag ++
            ([q].filter fun q => decide (q.port = k)).map Request.tag) ++ s.laneTags k) := by
        simp only [State.tagsOf, hstream, List.map_cons, List.cons_append, List.filter_cons, hp, decide_true, if_true,
          List.filter_nil, List.map_nil, State.laneTags, List.append_assoc]
        rw [← List.append_assoc, ← List.append_assoc]
        exact List.perm_middle.symm
      exact hperm.nodup_iff.1 hold
    · have hne : q.port ≠ k := fun hc => hk (hc ▸ hp)
      rw [if_neg hk, List.filter_append]
      simpa [hne, State.tagsOf, State.laneTags] using hold
  · have g := hr.geometry
    refine ⟨g.width, g.height, fun hs k => by simpa using g.contexts hs k, fun k => by simpa using g.entries k,
      fun r hm => ?_, g.zones, g.lanes, g.mark⟩
    rcases List.mem_append.1 hm with hm | hm
    · exact g.requests r (by simpa using hm)
    · rw [List.mem_singleton.1 hm]; simpa using fits

end Placed

/-! ## Allocation -/

/-- The request that the Scheduler chooses is eligible (R78, R79). -/
theorem State.choose_eligible (s : State) {i : Nat} (h : s.choose = some i) : s.eligibleAt i = true := by
  unfold State.choose at h
  simp only at h
  split at h
  · rename_i j hj
    cases h
    exact (Bool.and_eq_true _ _ ▸ List.find?_some hj).1
  · exact List.find?_some h

/-- An eligible request finds the table VALID, and one of HOLD policy meets no lane in use (R78). -/
theorem State.choose_spec (s : State) {i : Nat} {q : Request} (h : s.choose = some i) (hq : s.queue[i]? = some q) :
    s.table.phase = .valid ∧
      (q.policy = .hold → ∀ l, (s.lane l).state ≠ .free → q.rect.meets (s.lane l).rect = false) := by
  have he := s.choose_eligible h
  rw [State.eligibleAt, hq] at he
  simp only [State.eligible, Bool.and_eq_true, Bool.or_eq_true, decide_eq_true_eq] at he
  obtain ⟨⟨⟨⟨hv, -⟩, -⟩, -⟩, hpol⟩ := he
  refine ⟨by simpa [State.tableValid] using hv, fun hh l hl => ?_⟩
  have hun : s.unobstructed q = true := hpol.resolve_left (by simp [hh])
  simp only [State.unobstructed, Bool.and_eq_true, List.all_eq_true, Bool.or_eq_true, decide_eq_true_eq] at hun
  simpa using (hun.1 l (mem_laneIds l)).resolve_left hl

theorem State.freeLane_spec (s : State) {l : LaneId} (h : s.freeLane = some l) : (s.lane l).state = .free := by
  simpa using List.find?_some h

theorem State.allocate_lane (s : State) (i : Nat) (q : Request) (l k : LaneId) :
    (s.allocate i q l).lane k = if k = l then Lane.allocated q else s.lane k :=
  (s.withQueue (s.queue.eraseIdx i)).setLane_lane l k (Lane.allocated q)

/-- What an allocation needs: a FREE lane, and a request that finds the table VALID and, of HOLD policy, meets no lane
in use. -/
structure State.Allocates (s : State) (q : Request) (l : LaneId) : Prop where
  free : (s.lane l).state = .free
  valid : s.table.phase = .valid
  clear : q.policy = .hold → ∀ k, (s.lane k).state ≠ .free → q.rect.meets (s.lane k).rect = false

/-- A FREE lane is named by no record. -/
theorem ClaimsSound.unnamed {s : State} (h : ClaimsSound s) {l : LaneId} (hl : (s.lane l).state = .free) :
    s.Unnamed l := fun x hx hn => by
  rcases (h.named x l hx hn).2 with hst | hst | hst | hst <;> simp [hl] at hst

/-- An allocation keeps the claims invariant (R95, R96, R115). -/
theorem ClaimsSound.allocate {s : State} (h : ClaimsSound s) (hs : StoresSound s) (he : EnginesHeld s) {i : Nat}
    {q : Request} {l : LaneId} (ha : s.Allocates q l) : ClaimsSound (s.allocate i q l) := by
  have other {k : LaneId} (hk : (s.lane k).state ≠ .free) : (s.allocate i q l).lane k = s.lane k := by
    rw [State.allocate_lane, if_neg]
    rintro rfl
    exact hk ha.free
  have self : (s.allocate i q l).lane l = Lane.allocated q := by rw [State.allocate_lane, if_pos rfl]
  have ne {k : LaneId} (hkl : k ≠ l) : (s.allocate i q l).lane k = s.lane k := by
    rw [State.allocate_lane, if_neg hkl]
  have named {x : Pos} {k : LaneId} (hx : x.1 < 2048) (hn : (s.pixel x).lane = some k) : (s.lane k).state ≠ .free :=
    fun hc => h.unnamed hc x hx hn
  have clear (hp : q.policy = .hold) {k : LaneId} (hk : (s.lane k).state ≠ .free) :
      (Lane.allocated q).rect.meets (s.lane k).rect = false := ha.clear hp k hk
  exact {
    named := fun x k hx hn => by rw [other (named hx hn)]; exact h.named x k hx hn
    surveyed := fun w hw => by rw [other (he.survey w hw)]; exact h.surveyed w hw
    retired := fun w hw => by rw [other (he.retire w hw)]; exact h.retired w hw
    counted := fun k hk hr => by
      by_cases hkl : k = l
      · subst hkl
        rw [self]
        exact ((s.countP_eq_zero_iff ((Memory.wf_iff s).1 hs.form).2 k).2 (h.unnamed ha.free)).symm
      · rw [ne hkl] at hk ⊢
        exact h.counted k hk hr
    holdApart := fun j k hjk hj hk hpj hpk => by
      by_cases hjl : j = l
      · subst hjl
        rw [ne (Ne.symm hjk)] at hk ⊢
        rw [self] at hpj ⊢
        exact clear hpj hk
      · rw [ne hjl] at hj hpj ⊢
        by_cases hkl : k = l
        · subst hkl
          rw [self] at hpk ⊢
          rw [Rect.meets_comm]
          exact clear hpk hj
        · rw [ne hkl] at hk hpk ⊢
          exact h.holdApart j k hjk hj hk hpj hpk
    holdBusy := fun k hp => by
      by_cases hkl : k = l
      · subst hkl; rw [self]; rfl
      · rw [ne hkl] at hp ⊢; exact h.holdBusy k hp
    holdFirst := fun j k hjk hj hp hkf hkp => by
      have hkl : k ≠ l := by
        rintro rfl
        rw [self] at hkp
        exact hkp rfl
      rw [ne hkl] at hkf hkp ⊢
      by_cases hjl : j = l
      · subst hjl
        rw [self] at hp ⊢
        exact clear hp hkf
      · rw [ne hjl] at hj hp ⊢
        exact h.holdFirst j k hjk hj hp hkf hkp
    holdOrder := by
      change (s.surveyList ++ [l]).Pairwise _
      rw [List.pairwise_append]
      refine ⟨h.holdOrder.imp_of_mem fun {j k} hj hk hjk => ?_, List.pairwise_singleton _ _, fun k hk j hj hp => ?_⟩
      · rw [other (he.surveyList j hj), other (he.surveyList k hk)]
        exact hjk
      · cases List.mem_singleton.1 hj
        rw [self] at hp ⊢
        rw [other (he.surveyList k hk)]
        exact clear hp (he.surveyList k hk)
    tableHeld := fun _ _ => ha.valid
    promoteTargets := h.promoteTargets
    surveyMode := fun w hw => by rw [other (he.survey w hw)]; exact h.surveyMode w hw
    unknownSurveyed := fun w x hw hx hn hu => by rw [other (he.survey w hw)]; exact h.unknownSurveyed w x hw hx hn hu
    unknownAccepted := fun x k hx hn hu hst => by
      rw [other (named hx hn)] at hst ⊢
      exact h.unknownAccepted x k hx hn hu hst }

/-- The tags of a port's lanes after an allocation: the request's tag joins those of its port. -/
theorem State.laneTags_allocate (s : State) (i : Nat) (q : Request) (l : LaneId) (hl : (s.lane l).state = .free)
    (p : Port) : List.Perm ((s.allocate i q l).laneTags p)
      (if q.port = p then q.tag :: s.laneTags p else s.laneTags p) := by
  have hfree : l ∉ laneIds.filter fun k => decide ((s.lane k).state ≠ .free) && decide ((s.lane k).owner = p) := by
    simp [hl]
  have hold : s.laneTags p = (laneIds.filter fun k => decide ((s.lane k).state ≠ .free) &&
      decide ((s.lane k).owner = p)).map fun k => ((s.allocate i q l).lane k).tag := by
    refine List.map_congr_left fun k hk => ?_
    rw [State.allocate_lane, if_neg]
    rintro rfl
    exact hfree hk
  have hnew : List.Perm (laneIds.filter fun k => decide (((s.allocate i q l).lane k).state ≠ .free) &&
        decide (((s.allocate i q l).lane k).owner = p))
      (if q.port = p then l :: laneIds.filter fun k => decide ((s.lane k).state ≠ .free) && decide ((s.lane k).owner = p)
        else laneIds.filter fun k => decide ((s.lane k).state ≠ .free) && decide ((s.lane k).owner = p)) := by
    refine (List.perm_ext_iff_of_nodup (laneIds_nodup.filter _) ?_).2 fun k => ?_
    · split
      · exact List.nodup_cons.2 ⟨hfree, laneIds_nodup.filter _⟩
      · exact laneIds_nodup.filter _
    · rw [List.mem_filter, State.allocate_lane]
      by_cases hk : k = l
      · subst hk
        by_cases hq : q.port = p <;> simp [hq, Lane.allocated, hl]
      · by_cases hq : q.port = p <;> simp [hq, hk]
  refine (hnew.map fun k => ((s.allocate i q l).lane k).tag).trans ?_
  rw [hold]
  split
  · rw [List.map_cons, State.allocate_lane, if_pos rfl]; rfl
  · rfl

theorem Placed.allocate {s : State} (h : Placed s) {i : Nat} {q : Request} {l : LaneId} (hq : s.queue[i]? = some q)
    (ha : s.Allocates q l) : Placed (s.allocate i q l) where
  stores := h.stores.congr rfl rfl
  claims := h.claims.allocate h.stores h.engines ha
  engines := by
    have e := h.engines
    have other {k : LaneId} {st : LaneState} (hk : (s.lane k).state = st) (hne : st ≠ .free) :
        ((s.allocate i q l).lane k).state = st := by
      rw [State.allocate_lane, if_neg]
      · exact hk
      · rintro rfl
        exact hne (hk.symm.trans ha.free)
    refine ⟨fun w hw => other (e.surveying w hw) (by decide), fun w hw => other (e.retiring w hw) (by decide),
      fun k hk => ?_, fun k hk => other (e.listed k hk) (by decide)⟩
    rcases List.mem_append.1 hk with hk | hk
    · exact other (e.pending k hk) (by decide)
    · rw [List.mem_singleton.1 hk, State.allocate_lane, if_pos rfl]
      rfl
  tags p := by
    have hi : i < s.queue.length := (List.getElem?_eq_some_iff.1 hq).1
    have hget : s.queue[i] = q := (List.getElem?_eq_some_iff.1 hq).2
    have hqueue : List.Perm (q :: s.queue.eraseIdx i) s.queue := by
      rw [← hget]; exact List.getElem_cons_eraseIdx_perm hi
    have hfil : List.Perm ((s.queue.filter fun r => decide (r.port = p)).map Request.tag)
        ((if q.port = p then [q.tag] else []) ++ ((s.queue.eraseIdx i).filter fun r => decide (r.port = p)).map Request.tag) := by
      refine ((hqueue.symm.filter _).map _).trans ?_
      by_cases hp : q.port = p <;> simp [hp]
    have hlanes := s.laneTags_allocate i q l ha.free p
    have hperm : List.Perm (s.tagsOf p) ((s.allocate i q l).tagsOf p) := by
      change List.Perm (_ ++ _ ++ s.laneTags p) ((s.streamRequests p).map Request.tag ++
        ((s.queue.eraseIdx i).filter fun r => decide (r.port = p)).map Request.tag ++ (s.allocate i q l).laneTags p)
      refine ((hfil.append_left _).append_right _).trans ?_
      refine List.Perm.trans ?_ (hlanes.symm.append_left _)
      by_cases hp : q.port = p
      · simp only [hp, if_true, List.append_assoc]
        refine List.Perm.append_left _ ?_
        rw [List.singleton_append]
        exact (List.perm_middle (a := q.tag)).symm
      · simp [hp]
    exact hperm.nodup_iff.1 (h.tags p)
  geometry := by
    have g := h.geometry
    refine ⟨g.width, g.height, g.contexts, g.entries, fun r hr => g.requests r (List.mem_of_mem_eraseIdx hr), g.zones,
      fun k => ?_, g.mark⟩
    rw [State.allocate_lane]
    split
    · exact g.requests q (List.mem_of_getElem? hq)
    · exact g.lanes k

namespace Placed

variable {s : State}

/-- A reconsideration keeps places and claims sound (R77). -/
theorem reconsider (h : Placed s) : Placed s.reconsider :=
  State.reconsider_keeps Placed (fun t i q l ht hc hq hl => by
    obtain ⟨hv, hclear⟩ := t.choose_spec hc hq
    exact ht.allocate hq ⟨t.freeLane_spec hl, hv, hclear⟩) s h

/-- The start of a retire walk keeps places and claims sound (R128, R129). -/
theorem startRetire (h : Placed s) : Placed s.startRetire := by
  obtain ⟨r, hr, hbusy, hidle⟩ := s.startRetire_walk
  have hwalk (w : RetireWalk) (hw : r = some w) : s.retire = some w ∨
      (s.retire = none ∧ w.lane ∈ s.retireList ∧ w.pos = some (s.lane w.lane).rect.origin) := by
    cases hs : s.retire with
    | some v => rw [hbusy v hs] at hw; exact .inl hw
    | none =>
      rw [hidle hs] at hw
      obtain ⟨l, hl, rfl⟩ := Option.map_eq_some_iff.1 hw
      exact .inr ⟨rfl, List.mem_of_head? hl, rfl⟩
  rw [hr]
  have c := h.claims
  have e := h.engines
  have g := h.geometry
  exact {
    stores := h.stores.congr rfl rfl
    engines := ⟨e.surveying, fun w hw => (hwalk w hw).elim (e.retiring w) fun hn => e.listed _ hn.2.1, e.pending,
      e.listed⟩
    tags := h.tags.of_sublist (fun p => by simp [State.streamRequests]) (.refl _) (fun p => .refl _)
    geometry := ⟨g.width, g.height, fun hs p => by simpa using g.contexts hs p, fun p => by simpa using g.entries p,
      g.requests, g.zones, g.lanes, g.mark⟩
    claims := { c with
      retired := fun w hw => by
        rcases hwalk w hw with hs | ⟨-, -, hpos⟩
        · exact c.retired w hs
        · refine ⟨fun z hz => ?_, fun x hx hn => ⟨_, hpos, Rect.origin_first (c.named x w.lane hx hn).1⟩⟩
          rw [hpos] at hz
          cases hz
          exact Rect.has_origin (g.lanes w.lane).order
      counted := fun l hl hne => c.counted l hl fun hc => hne (by
        obtain ⟨w, hw, rfl⟩ := Option.map_eq_some_iff.1 hc
        exact congrArg (Option.map RetireWalk.lane) (hbusy w hw)) } }

end Placed

end Sys2Proof.Machine
end

section
/-! The ends and moves of lanes (R107, R109 to R114, R117, R121, R123, R127, R133): each keeps places and claims sound.
-/

namespace Sys2Proof.Machine

/-- The decision keeps what a lane is (R107). -/
theorem Lane.decided_alike (L : Lane) (m : ModeRecord) : L.Alike (L.decided m) := by
  unfold Lane.decided
  split <;> exact ⟨rfl, rfl, rfl, rfl, rfl, rfl, rfl, fun _ => rfl⟩

theorem Lane.leaving_alike (L : Lane) (k : RetireKind) (o : UpdateOutcome) : L.Alike (L.leaving k o) :=
  ⟨rfl, rfl, rfl, rfl, rfl, rfl, rfl, fun _ => rfl⟩

namespace Placed

variable {s : State}

/-! ## A lane at a time -/

/-- A change of a lane that keeps what it is, its state and its final mode. -/
theorem mapLane (h : Placed s) (l : LaneId) (f : Lane → Lane) (alike : (s.lane l).Alike (f (s.lane l)))
    (state : (f (s.lane l)).state = (s.lane l).state) (mode : (f (s.lane l)).finalMode = (s.lane l).finalMode) :
    Placed (s.mapLane l f) := by
  have lane (k : LaneId) : (s.mapLane l f).lane k = if k = l then f (s.lane l) else s.lane k :=
    s.setLane_lane l k (f (s.lane l))
  have same (k : LaneId) : ((s.mapLane l f).lane k).state = (s.lane k).state := by
    rw [lane]
    split
    · rename_i hk; rw [hk, state]
    · rfl
  refine h.ofLanes (.mapLane s l f) ⟨rfl, rfl, fun k => ?_, .refl _, fun _ hw => hw, .inl rfl, ?_⟩ (.refl _)
  · rw [lane]
    split
    · rename_i hk; subst hk; exact .stays alike state mode
    · exact .stays (.refl _) rfl rfl
  · have e := h.engines
    exact ⟨fun w hw => (same _).trans (e.surveying w hw), fun w hw => (same _).trans (e.retiring w hw),
      fun k hk => (same k).trans (e.pending k hk), fun k hk => (same k).trans (e.listed k hk)⟩

/-- A lane past its survey joins the retire list (R123, R128). -/
theorem joinRetire (h : Placed s) (k : RetireKind) (o : UpdateOutcome) (l : LaneId)
    (hl : (s.lane l).state.IsSurveyed) : Placed (State.joinRetire k o s l) := by
  have lane (j : LaneId) : (State.joinRetire k o s l).lane j = if j = l then (s.lane l).leaving k o else s.lane j :=
    s.setLane_lane l j _
  have other {j : LaneId} (hj : ¬ (s.lane j).state.IsSurveyed) : (State.joinRetire k o s l).lane j = s.lane j := by
    rw [lane, if_neg]
    rintro rfl
    exact hj hl
  have retiring {j : LaneId} (hj : (s.lane j).state = .retiring) :
      ((State.joinRetire k o s l).lane j).state = .retiring := by
    rw [lane]
    split
    · rfl
    · exact hj
  refine h.ofLanes (.joinRetire k o s l) ⟨rfl, rfl, fun j => ?_, .refl _, fun _ hw => hw, .inl rfl, ?_⟩ (.refl _)
  · rw [lane]
    split
    · rename_i hj
      subst hj
      exact .goesOn ((s.lane j).leaving_alike k o) hl (.inr (.inr rfl)) rfl
    · exact .stays (.refl _) rfl rfl
  · have e := h.engines
    refine ⟨fun w hw => ?_, fun w hw => retiring (e.retiring w hw), fun j hj => ?_, fun j hj => ?_⟩
    · have hst := e.surveying w hw
      rw [other fun hc => hc.ne_survey hst]; exact hst
    · have hst := e.pending j hj
      rw [other fun hc => hc.ne_pending hst]; exact hst
    · rcases List.mem_append.1 hj with hj | hj
      · exact retiring (e.listed j hj)
      · rw [List.mem_singleton.1 hj, lane, if_pos rfl]; rfl

/-- A lane that is PENDING, or FREE already, is at rest and off the survey list (R110, R113). -/
theorem endPending (h : Placed s) (o : UpdateOutcome) (l : LaneId)
    (hl : (s.lane l).state = .pending ∨ (s.lane l).state = .free) : Placed (State.endPending o s l) := by
  have lane (k : LaneId) : (State.endPending o s l).lane k = if k = l then Lane.rest else s.lane k := by
    rw [State.endPending_eq]
    split <;> simp [State.appendDone_eq]
  have list : (State.endPending o s l).surveyList = s.surveyList.filter fun k => decide (k ≠ l) := by
    rw [State.endPending_eq]; rfl
  have body : (State.endPending o s l).survey = s.survey ∧ (State.endPending o s l).retire = s.retire ∧
      (State.endPending o s l).retireList = s.retireList ∧ (State.endPending o s l).queue = s.queue := by
    rw [State.endPending_eq]
    split <;> simp [State.appendDone_eq]
  obtain ⟨hsv, hrt, hrl, hq⟩ := body
  have keeps {k : LaneId} {st : LaneState} (hk : (s.lane k).state = st) (h1 : st ≠ .pending) (h2 : st ≠ .free) :
      ((State.endPending o s l).lane k).state = st := by
    rw [lane, if_neg]
    · exact hk
    · rintro rfl
      rcases hl with hl | hl <;> simp [hl] at hk <;> simp [← hk] at h1 h2
  have unnamed : s.Unnamed l := fun x hx hn => by
    rcases (h.claims.named x l hx hn).2 with hst | hst | hst | hst <;> rcases hl with hl | hl <;> simp [hst] at hl
  have frame := LaneOnly.endPending o s l
  refine h.ofLanes frame ⟨frame.pixels, frame.table, fun k => ?_, by rw [list]; exact List.filter_sublist,
    fun w hw => by rwa [hsv] at hw, .inl hrt, ?_⟩ (by rw [hq])
  · rw [lane]
    split
    · rename_i hk; subst hk; exact .ends unnamed rfl (.refl _)
    · exact .stays (.refl _) rfl rfl
  · have e := h.engines
    refine ⟨fun w hw => ?_, fun w hw => ?_, fun k hk => ?_, fun k hk => ?_⟩
    · rw [hsv] at hw; exact keeps (e.surveying w hw) (by decide) (by decide)
    · rw [hrt] at hw; exact keeps (e.retiring w hw) (by decide) (by decide)
    · rw [list, List.mem_filter] at hk
      obtain ⟨hm, hne⟩ := hk
      rw [lane, if_neg (by simpa using hne)]
      exact e.pending k hm
    · rw [hrl] at hk; exact keeps (e.listed k hk) (by decide) (by decide)

/-- The lane being surveyed leaves its survey with the decision made (R107, R108, R111). -/
theorem leaveSurvey (h : Placed s) {w : Survey} (hw : s.survey = some w) (M : Lane) (rl : List LaneId)
    (alike : (s.lane w.lane).Alike M) (new : M.state.IsSurveyed)
    (mode : M.finalMode = ((s.lane w.lane).decided w.mode).finalMode)
    (hrl : ∀ k ∈ rl, k ∈ s.retireList ∨ k = w.lane ∧ M.state = .retiring) :
    Placed (((s.withSurvey none).setLane w.lane M).withRetireList rl) := by
  have hst := h.engines.surveying w hw
  have lane (k : LaneId) : (((s.withSurvey none).setLane w.lane M).withRetireList rl).lane k =
      if k = w.lane then M else s.lane k := (s.withSurvey none).setLane_lane w.lane k M
  have other {k : LaneId} {st : LaneState} (hk : (s.lane k).state = st) (hne : st ≠ .survey) :
      ((((s.withSurvey none).setLane w.lane M).withRetireList rl).lane k).state = st := by
    rw [lane, if_neg]
    · exact hk
    · rintro rfl
      exact hne (hk.symm.trans hst)
  refine h.ofLanes ((LaneOnly.withSurvey s _).trans ((LaneOnly.setLane _ _ _).trans (LaneOnly.withRetireList _ _)))
    ⟨rfl, rfl, fun k => ?_, .refl _, fun _ hw => absurd hw (by simp), .inl rfl, ?_⟩ (.refl _)
  · rw [lane]
    split
    · rename_i hk
      subst hk
      exact .leavesSurvey w hw rfl alike hst new mode
    · exact .stays (.refl _) rfl rfl
  · have e := h.engines
    refine ⟨fun _ hw => absurd hw (by simp), fun v hv => other (e.retiring v hv) (by decide),
      fun k hk => other (e.pending k hk) (by decide), fun k hk => ?_⟩
    rcases hrl k hk with hm | ⟨rfl, hM⟩
    · exact other (e.listed k hm) (by decide)
    · rw [lane, if_pos rfl]; exact hM

/-- The survey stops and its lane joins the retire list (R107, R111, R116). -/
theorem retireSurveyed (h : Placed s) {w : Survey} (hw : s.survey = some w) (k : RetireKind) (o : UpdateOutcome) :
    Placed (State.joinRetire k o s.closeSurvey w.lane) := by
  have hM := h.leaveSurvey hw (((s.lane w.lane).decided w.mode).leaving k o) (s.retireList ++ [w.lane])
    (((s.lane w.lane).decided_alike w.mode).trans (Lane.leaving_alike _ k o)) (.inr (.inr rfl)) rfl fun j hj => by
      rcases List.mem_append.1 hj with hj | hj
      · exact .inl hj
      · exact .inr ⟨List.mem_singleton.1 hj, rfl⟩
  have heq : State.joinRetire k o s.closeSurvey w.lane = (((s.withSurvey none).setLane w.lane
      (((s.lane w.lane).decided w.mode).leaving k o)).withRetireList (s.retireList ++ [w.lane])) := by
    rw [State.joinRetire_eq, State.closeSurvey_eq, hw]
    simp only [State.withSurvey_lane, State.setLane_lane, if_true]
    simp [State.setLane, State.withLanes, State.withSurvey, State.withRetireList, Lane.leaving]
  rw [heq]
  exact hM

/-! ## Folds over lanes -/

/-- What a step of a fold makes of the lanes ahead of it is what they were made for. -/
theorem foldl_lanes (Q : Lane → Prop) (f : State → LaneId → State)
    (step : ∀ t l, Placed t → Q (t.lane l) → Placed (f t l) ∧ ∀ k, Q (t.lane k) → Q ((f t l).lane k))
    (ls : List LaneId) (h : Placed s) (hq : ∀ l ∈ ls, Q (s.lane l)) : Placed (ls.foldl f s) := by
  induction ls generalizing s with
  | nil => exact h
  | cons l ls ih =>
    obtain ⟨h1, h2⟩ := step s l h (hq l (by simp))
    exact ih h1 fun k hk => h2 k (hq k (by simp [hk]))

theorem foldl_joinRetire (h : Placed s) (k : RetireKind) (o : UpdateOutcome) (ls : List LaneId)
    (hl : ∀ l ∈ ls, (s.lane l).state.IsSurveyed) : Placed (ls.foldl (State.joinRetire k o) s) :=
  foldl_lanes (fun L => L.state.IsSurveyed) _ (fun t l ht hq => ⟨ht.joinRetire k o l hq, fun j hj => by
    rw [show (State.joinRetire k o t l).lane j = if j = l then (t.lane l).leaving k o else t.lane j from
      t.setLane_lane l j _]
    split
    · exact .inr (.inr rfl)
    · exact hj⟩) ls h hl

theorem foldl_endPending (h : Placed s) (o : UpdateOutcome) (ls : List LaneId)
    (hl : ∀ l ∈ ls, (s.lane l).state = .pending ∨ (s.lane l).state = .free) :
    Placed (ls.foldl (State.endPending o) s) :=
  foldl_lanes (fun L => L.state = .pending ∨ L.state = .free) _ (fun t l ht hq => ⟨ht.endPending o l hq, fun j hj => by
    have lane : (State.endPending o t l).lane j = if j = l then Lane.rest else t.lane j := by
      rw [State.endPending_eq]
      split <;> simp [State.appendDone_eq]
    rw [lane]
    split
    · exact .inr rfl
    · exact hj⟩) ls h hl

/-- A RUNNING lane advances (R121). -/
theorem advanceLane (h : Placed s) (l : LaneId) (hl : (s.lane l).state.IsSurveyed) : Placed (s.advanceLane l) := by
  have hm : Placed (s.mapLane l fun r => { r with frameIndex := r.frameIndex + 1 }) :=
    h.mapLane l _ ⟨rfl, rfl, rfl, rfl, rfl, rfl, rfl, fun _ => rfl⟩ rfl rfl
  have hst : ((s.mapLane l fun r => { r with frameIndex := r.frameIndex + 1 }).lane l).state.IsSurveyed := by
    simpa using hl
  unfold State.advanceLane
  simp only
  split
  · exact hm.joinRetire _ _ l hst
  · split
    · exact hm.joinRetire _ _ l hst
    · exact hm

end Placed

/-- Another lane's advance leaves a lane. -/
theorem State.advanceLane_other (s : State) {l j : LaneId} (h : j ≠ l) : (s.advanceLane l).lane j = s.lane j := by
  unfold State.advanceLane State.joinRetire
  simp only
  split
  · simp [h]
  · split <;> simp [h]

theorem State.advanceLane_state (s : State) (l : LaneId) (h : (s.lane l).state.IsSurveyed) :
    ((s.advanceLane l).lane l).state.IsSurveyed := by
  unfold State.advanceLane State.joinRetire
  simp only
  split
  · simp [LaneState.IsSurveyed]
  · split
    · simp [LaneState.IsSurveyed]
    · simpa using h

/-- The lanes that are not RUNNING are left at a boundary (R121). -/
theorem State.advance_other (s : State) {j : LaneId} (h : (s.lane j).state ≠ .running) : s.advance.lane j = s.lane j := by
  have fold (ls : List LaneId) : ∀ t : State, j ∉ ls → (ls.foldl State.advanceLane t).lane j = t.lane j := by
    induction ls with
    | nil => exact fun _ _ => rfl
    | cons l ls ih =>
      intro t hj
      rw [List.mem_cons, not_or] at hj
      exact (ih _ hj.2).trans (t.advanceLane_other hj.1)
  exact fold _ s fun hm => h ((s.mem_lanesIn .running j).1 hm)

/-- Which lane is being surveyed does not change when the RUNNING lanes retire. -/
theorem State.faultRunning_survey (s : State)
    (hs : ∀ l, s.survey.map Survey.lane = some l ↔ (s.lane l).state = .survey) (l : LaneId) :
    s.faultRunning.survey.map Survey.lane = some l ↔ (s.faultRunning.lane l).state = .survey := by
  obtain ⟨v, hv, hlane⟩ := s.faultRunning_eq
  have hsv : s.faultRunning.survey = s.survey := by rw [hv]; rfl
  have hl : s.faultRunning.lane l = (s.withLanes v).lane l := by rw [hv]; rfl
  rw [hsv, hl, hlane, hs]
  split
  · rename_i hr; simp [hr]
  · exact Iff.rfl

namespace Placed

variable {s : State}

theorem advance (h : Placed s) : Placed s.advance :=
  foldl_lanes (fun L => L.state.IsSurveyed) _ (fun t l ht hq => ⟨ht.advanceLane l hq, fun j hj => by
    by_cases hjl : j = l
    · subst hjl; exact t.advanceLane_state j hj
    · rw [t.advanceLane_other hjl]; exact hj⟩) _ h fun l hl => .inr (.inl ((s.mem_lanesIn .running l).1 hl))

/-- A lane enters RUNNING from the arming list (R117, R118). -/
theorem enterRunning (h : Placed s) (l : LaneId) (hl : (s.lane l).state = .armed ∨ (s.lane l).state = .running) :
    Placed (s.mapLane l fun r => { r with state := .running, frameIndex := 0 }) := by
  have lane (k : LaneId) : (s.mapLane l fun r => { r with state := .running, frameIndex := 0 }).lane k =
      if k = l then { s.lane l with state := .running, frameIndex := 0 } else s.lane k := s.setLane_lane l k _
  have other {k : LaneId} {st : LaneState} (hk : (s.lane k).state = st) (h1 : st ≠ .armed) (h2 : st ≠ .running) :
      ((s.mapLane l fun r => { r with state := .running, frameIndex := 0 }).lane k).state = st := by
    rw [lane, if_neg]
    · exact hk
    · rintro rfl
      rcases hl with hl | hl <;> rw [hl] at hk
      · exact h1 hk.symm
      · exact h2 hk.symm
  refine h.ofLanes (.mapLane s l _) ⟨rfl, rfl, fun k => ?_, .refl _, fun _ hw => hw, .inl rfl, ?_⟩ (.refl _)
  · rw [lane]
    split
    · rename_i hk
      subst hk
      exact .goesOn ⟨rfl, rfl, rfl, rfl, rfl, rfl, rfl, fun _ => rfl⟩ (hl.imp id .inl) (.inr (.inl rfl)) rfl
    · exact .stays (.refl _) rfl rfl
  · have e := h.engines
    exact ⟨fun w hw => other (e.surveying w hw) (by decide) (by decide),
      fun w hw => other (e.retiring w hw) (by decide) (by decide),
      fun k hk => other (e.pending k hk) (by decide) (by decide),
      fun k hk => other (e.listed k hk) (by decide) (by decide)⟩

theorem admitLane (h : Placed s) (ls : List LaneId) (hl : ∀ l ∈ ls, (s.lane l).state = .armed) :
    Placed (s.admitLane ls) := by
  refine Placed.withArmingList ?_ _
  refine foldl_lanes (fun L => L.state = .armed ∨ L.state = .running) _ (fun t l ht hq => ⟨ht.enterRunning l hq,
    fun j hj => ?_⟩) ls h fun l hm => .inl (hl l hm)
  rw [State.mapLane_eq, State.setLane_lane]
  split
  · exact .inr rfl
  · exact hj

/-! ## Trips and the halt -/

theorem faultRunning (h : Placed s) : Placed s.faultRunning :=
  h.foldl_joinRetire _ _ _ fun l hl => .inr (.inl ((s.mem_lanesIn .running l).1 hl))

/-- The halt ends or releases every lane that holds no frame (R113, R156). -/
theorem haltLanes (h : Placed s) (hs : ∀ l, s.survey.map Survey.lane = some l ↔ (s.lane l).state = .survey) :
    Placed s.haltLanes := by
  have released : Placed ((s.lanesIn .survey ++ s.lanesIn .armed).foldl (State.joinRetire .release .faulted)
      s.closeSurvey) := by
    cases hw : s.survey with
    | none =>
      have hnone : s.lanesIn .survey = [] := List.eq_nil_iff_forall_not_mem.2 fun l hl => by
        have := (hs l).2 ((s.mem_lanesIn .survey l).1 hl)
        simp [hw] at this
      rw [hnone, State.closeSurvey_eq, hw]
      exact h.foldl_joinRetire _ _ _ fun l hl => .inl ((s.mem_lanesIn .armed l).1 hl)
    | some w =>
      have hone : s.lanesIn .survey = [w.lane] := by
        have hmem (l : LaneId) : l ∈ s.lanesIn .survey ↔ l = w.lane := by
          rw [s.mem_lanesIn, ← hs l, hw]; simp [eq_comm]
        exact List.perm_singleton.1 ((List.perm_ext_iff_of_nodup (s.lanesIn_nodup _) (by simp)).2 (by simpa using hmem))
      rw [hone, List.singleton_append, List.foldl_cons]
      refine (h.retireSurveyed hw _ _).foldl_joinRetire _ _ _ fun l hl => ?_
      have hst := (s.mem_lanesIn .armed l).1 hl
      have hne : l ≠ w.lane := by
        rintro rfl
        rw [h.engines.surveying w hw] at hst
        exact absurd hst (by decide)
      rw [State.joinRetire_eq, State.closeSurvey_eq, hw]
      simp [hne, hst, LaneState.IsSurveyed]
  have hr := released.withArmingList []
  exact (hr.foldl_endPending .faulted _ fun l hl => .inl (hr.engines.pending l hl)).reconsider

/-- The scan's return to IDLE takes a pending frame-mark row, which is inside the panel (R142, R144). -/
theorem toIdle (h : Placed s) : Placed (s.withScan s.scan.toIdle) := by
  refine h.withScan _ ⟨?_, by simp [Scanner.toIdle]⟩
  cases hp : s.scan.pendingMark with
  | none => simpa [Scanner.toIdle, hp] using h.geometry.mark.1
  | some r => simpa [Scanner.toIdle, hp] using h.geometry.mark.2 r hp

/-- A trip, and a halt when the recovery mark is set (R153, R156). -/
theorem trip (h : Placed s) (hs : ∀ l, s.survey.map Survey.lane = some l ↔ (s.lane l).state = .survey)
    (cause : TripCause) : Placed (s.trip cause) := by
  have hf := (h.withSupply (s.supply.trip cause)).faultRunning.toIdle.ofLink (.raiseBoth _ .supplyFault)
  have hsv := State.faultRunning_survey (s.withSupply (s.supply.trip cause)) hs
  unfold State.trip
  simp only
  split
  · refine Placed.startRetire (Placed.haltLanes (hf.ofLink (.raiseBoth _ .halted)) fun l => ?_)
    have l1 := LinkOnly.raiseBoth (((s.withSupply (s.supply.trip cause)).faultRunning).withScan
      ((s.withSupply (s.supply.trip cause)).faultRunning).scan.toIdle) .supplyFault
    have l2 := l1.trans (LinkOnly.raiseBoth _ .halted)
    rw [l2.survey, l2.lane]
    exact hsv l
  · exact hf.startRetire

end Placed

end Sys2Proof.Machine
end

section
/-! The events of the engines (R84, R97 to R109, R117, R121, R129 to R134, R137 to R143): each keeps places and claims
sound.
-/

namespace Sys2Proof.Machine

namespace Placed

variable {s : State}

/-! ## Withdrawals and resets -/

/-- A lane is withdrawn, by its state (R84, R110, R111, R124, R125). -/
theorem withdrawLane (h : Placed s) (hs : ∀ l, s.survey.map Survey.lane = some l ↔ (s.lane l).state = .survey)
    (p : Port) (l : LaneId) : Placed (s.withdrawLane p l) := by
  unfold State.withdrawLane
  split
  · rename_i hst
    exact (h.endPending _ l (.inl hst)).reconsider.ofLink (.setResult _ p _)
  · rename_i hst
    obtain ⟨w, hw, rfl⟩ := Option.map_eq_some_iff.1 ((hs l).2 hst)
    exact (h.retireSurveyed hw _ _).startRetire.ofLink (.setResult _ p _)
  · rename_i hst
    have ha := h.withArmingList (s.armingList.filter fun k => decide (k ≠ l))
    exact (ha.joinRetire .release .withdrawn l (.inl hst)).startRetire.ofLink (.setResult _ p .ok)
  · exact Placed.ofLink (h.mapLane l (fun r => { r with abort := true }) ⟨rfl, rfl, rfl, rfl, rfl, rfl, rfl, fun _ => rfl⟩ rfl rfl)
      (.setResult _ p _)
  · exact h.ofLink (.setResult _ p _)
  · exact h.ofLink (.setResult _ p _)

/-- What a reset makes of a lane is a move that a lane may make (R114, R127). -/
theorem endedLane_moves (h : Placed s) (hl : LanesSound s) (l : LaneId) : s.LaneMoves l (endedLane s (s.lane l)) := by
  cases hst : (s.lane l).state with
  | free => rw [endedLane, hst]; exact .stays (.refl _) rfl rfl
  | pending =>
    rw [endedLane, hst]
    refine .ends (fun x hx hn => ?_) rfl (.refl _)
    rcases (h.claims.named x l hx hn).2 with hc | hc | hc | hc <;> simp [hst] at hc
  | survey =>
    obtain ⟨w, hw, rfl⟩ := Option.map_eq_some_iff.1 ((hl.surveyed l).2 hst)
    rw [endedLane_survey s _ hst, State.decidedBy, hw]
    exact .leavesSurvey w hw rfl ((Lane.decided_alike _ w.mode).trans ⟨rfl, rfl, rfl, rfl, rfl, rfl, rfl, fun _ => rfl⟩) hst
      (.inr (.inr rfl)) rfl
  | armed =>
    rw [endedLane, hst]
    exact .goesOn ⟨rfl, rfl, rfl, rfl, rfl, rfl, rfl, fun _ => rfl⟩ (.inl hst) (.inr (.inr rfl)) rfl
  | running =>
    rw [endedLane, hst]
    exact .stays ⟨rfl, rfl, rfl, rfl, rfl, rfl, rfl, fun _ => rfl⟩ hst.symm rfl
  | retiring =>
    rw [endedLane, hst]
    exact .stays ⟨rfl, rfl, rfl, rfl, rfl, rfl, rfl, fun _ => rfl⟩ hst.symm rfl

/-- A reset ends lanes (R14, R114, R127). -/
theorem endLanes (h : Placed s) (hl : LanesSound s) (mine : Port → Bool) : Placed (s.endLanes mine) := by
  obtain ⟨v, e, hv⟩ := s.endLanes_eq hl mine
  rw [e]
  refine Placed.startRetire ?_
  have frame := ((((LaneOnly.withLanes s v).trans (.withSurveyList _ (s.surveyList.filter fun l =>
    !s.ownedBy mine l))).trans (.withSurvey _ (if s.survey.any fun w => s.ownedBy mine w.lane then none
    else s.survey))).trans (.withArmingList _ (s.armingList.filter fun l => !s.ownedBy mine l))).trans
    (.withRetireList _ (s.retireList ++ s.releasedBy mine))
  have lane (l : LaneId) : (((((s.withLanes v).withSurveyList (s.surveyList.filter fun l => !s.ownedBy mine l)).withSurvey
      (if s.survey.any fun w => s.ownedBy mine w.lane then none else s.survey)).withArmingList
      (s.armingList.filter fun l => !s.ownedBy mine l)).withRetireList (s.retireList ++ s.releasedBy mine)).lane l =
      if s.ownedBy mine l then endedLane s (s.lane l) else s.lane l := by
    rw [State.withRetireList_lane, State.withArmingList_lane, State.withSurvey_lane, State.withSurveyList_lane, hv]
  have retiring {l : LaneId} (hst : (s.lane l).state = .retiring) :
      (if s.ownedBy mine l then endedLane s (s.lane l) else s.lane l).state = .retiring := by
    split
    · rw [endedLane, hst]
    · exact hst
  have left {l : LaneId} {st : LaneState} (hm : ¬ s.ownedBy mine l = true) (hst : (s.lane l).state = st) :
      (if s.ownedBy mine l then endedLane s (s.lane l) else s.lane l).state = st := by rw [if_neg hm, hst]
  have survey (w : Survey) (hw : (if s.survey.any fun w => s.ownedBy mine w.lane then none else s.survey) = some w) :
      s.survey = some w ∧ ¬ s.ownedBy mine w.lane = true := by
    split at hw
    · exact absurd hw (by simp)
    · rename_i hany
      rw [hw] at hany
      exact ⟨hw, by simpa using hany⟩
  have eng := h.engines
  refine h.ofLanes frame ⟨frame.pixels, frame.table, fun l => ?_, ?_, fun w hw => ?_, .inl ?_,
    ⟨fun w hw => ?_, fun w hw => ?_, fun l hm => ?_, fun l hm => ?_⟩⟩ ?_
  · rw [lane]
    split
    · exact h.endedLane_moves hl l
    · exact .stays (.refl _) rfl rfl
  · simp only [State.withRetireList_surveyList, State.withArmingList_surveyList, State.withSurvey_surveyList,
      State.withSurveyList_surveyList]
    exact List.filter_sublist
  · simp only [State.withRetireList_survey, State.withArmingList_survey, State.withSurvey_survey] at hw
    exact (survey w hw).1
  · simp only [State.withRetireList_retire, State.withArmingList_retire, State.withSurvey_retire,
      State.withSurveyList_retire, State.withLanes_retire]
  · simp only [State.withRetireList_survey, State.withArmingList_survey, State.withSurvey_survey] at hw
    obtain ⟨hw, hm⟩ := survey w hw
    rw [lane]
    exact left hm (eng.surveying w hw)
  · simp only [State.withRetireList_retire, State.withArmingList_retire, State.withSurvey_retire,
      State.withSurveyList_retire, State.withLanes_retire] at hw
    rw [lane]
    exact retiring (eng.retiring w hw)
  · simp only [State.withRetireList_surveyList, State.withArmingList_surveyList, State.withSurvey_surveyList,
      State.withSurveyList_surveyList] at hm
    obtain ⟨hm, hown⟩ := List.mem_filter.1 hm
    rw [lane]
    exact left (by simpa using hown) (eng.pending l hm)
  · simp only [State.withRetireList_retireList] at hm
    rw [lane]
    rcases List.mem_append.1 hm with hm | hm
    · exact retiring (eng.listed l hm)
    · obtain ⟨hown, hst⟩ := (s.mem_releasedBy mine l).1 hm
      rw [if_pos hown]
      rcases hst with hst | hst <;> rw [endedLane, hst]
  · simp only [State.withRetireList_queue, State.withArmingList_queue, State.withSurvey_queue,
      State.withSurveyList_queue, State.withLanes_queue]
    exact .refl _

end Placed

end Sys2Proof.Machine
end

section
/-! The Survey Engine, the Frame Scanner and the Retire Engine (R97 to R109, R117, R121, R129 to R134, R137 to R143):
each of their events keeps places and claims sound.
-/

namespace Sys2Proof.Machine

/-- A lane that only counts: what it is, its state and its final mode stay, and so does its busy skipped count. -/
structure Lane.Kept (L M : Lane) : Prop where
  state : M.state = L.state
  owner : M.owner = L.owner
  tag : M.tag = L.tag
  requestedMode : M.requestedMode = L.requestedMode
  finalMode : M.finalMode = L.finalMode
  policy : M.policy = L.policy
  rect : M.rect = L.rect
  busySkipped : M.busySkipped = L.busySkipped

/-- What a claim makes of the lane (R104): it is the lane it was, with one more claim, and one more UNKNOWN claim when
the pixel was UNKNOWN. -/
structure ClaimedOne (L M : Lane) (unknown : Bool) : Prop where
  same : M = { L with claimed := L.claimed + 1, changing := M.changing, unknownClaimed := M.unknownClaimed
                      longestRequested := M.longestRequested, longestPromoted := M.longestPromoted, worn := M.worn }
  unknownClaimed : M.unknownClaimed = if unknown then L.unknownClaimed + 1 else L.unknownClaimed

theorem ClaimedOne.kept {L M : Lane} {unknown : Bool} (h : ClaimedOne L M unknown) : L.Kept M := by
  rw [h.same]
  exact ⟨rfl, rfl, rfl, rfl, rfl, rfl, rfl, rfl⟩

namespace Placed

variable {s : State}

/-! ## The end of a lane -/

/-- A lane that no record names and that no list or engine keeps ends (R109, R133). -/
theorem endLane {t : State} (h : Placed s) (frame : LaneOnly s t) (l : LaneId) (unnamed : s.Unnamed l)
    (lane : ∀ k, t.lane k = if k = l then Lane.rest else s.lane k)
    (survey : ∀ w, t.survey = some w → s.survey = some w ∧ w.lane ≠ l)
    (surveyList : t.surveyList = s.surveyList) (pending : l ∉ s.surveyList)
    (retire : t.retire = s.retire ∨ (t.retire = none ∧ ∀ w, s.retire = some w → w.lane = l))
    (retiring : ∀ w, t.retire = some w → w.lane ≠ l)
    (retireList : ∀ k ∈ t.retireList, k ∈ s.retireList ∧ k ≠ l) (queue : t.queue = s.queue) : Placed t := by
  have other {k : LaneId} (hk : k ≠ l) : t.lane k = s.lane k := by rw [lane, if_neg hk]
  have eng := h.engines
  refine h.ofLanes frame ⟨frame.pixels, frame.table, fun k => ?_, by rw [surveyList], fun w hw => (survey w hw).1,
    retire.imp id fun hr => ⟨hr.1, fun w hw => ?_⟩, ⟨fun w hw => ?_, fun w hw => ?_, fun k hk => ?_, fun k hk => ?_⟩⟩
    (by rw [queue])
  · rw [lane]
    split
    · rename_i hk; subst hk; exact .ends unnamed rfl (.refl _)
    · exact .stays (.refl _) rfl rfl
  · rw [lane, if_pos (hr.2 w hw)]; rfl
  · obtain ⟨hs, hne⟩ := survey w hw
    rw [other hne]; exact eng.surveying w hs
  · rw [other (retiring w hw)]
    rcases retire with hr | ⟨hr, -⟩
    · exact eng.retiring w (by rw [← hr, hw])
    · rw [hr] at hw; exact absurd hw (by simp)
  · rw [surveyList] at hk
    rw [other (fun hc => pending (hc ▸ hk))]
    exact eng.pending k hk
  · obtain ⟨hm, hne⟩ := retireList k hk
    rw [other hne]; exact eng.listed k hm

/-- A change of records, lanes and engines that keeps every lane's request, its claims sound on their own. -/
theorem ofRecords {t : State} (h : Placed s)
    (body : t = { s with pixels := t.pixels, lanes := t.lanes, lastGrant := t.lastGrant, surveyList := t.surveyList
                         survey := t.survey, retire := t.retire })
    (lane : ∀ k, ((t.lane k).state ≠ .free → (s.lane k).state ≠ .free) ∧ (t.lane k).owner = (s.lane k).owner ∧
      (t.lane k).tag = (s.lane k).tag ∧ (t.lane k).rect = (s.lane k).rect)
    (stores : StoresSound t) (engines : EnginesHeld t) (claims : ClaimsSound t) : Placed t where
  stores := stores
  engines := engines
  claims := claims
  tags := by
    have port (p : Port) : t.port p = s.port p := by rw [body]; cases p <;> rfl
    refine h.tags.of_sublist (fun p => by rw [State.streamRequests, port]; exact .refl _) (by rw [body])
      fun p => ?_
    unfold State.laneTags
    rw [List.map_congr_left fun l _ => (lane l).2.2.1]
    refine (List.monotone_filter_right laneIds fun l hl => ?_).map _
    simp only [Bool.and_eq_true, decide_eq_true_eq] at hl ⊢
    exact ⟨(lane l).1 hl.1, (lane l).2.1 ▸ hl.2⟩
  geometry := by
    have g := h.geometry
    have port (p : Port) : t.port p = s.port p := by rw [body]; cases p <;> rfl
    have hw : t.width = s.width := by rw [body]
    have hh : t.height = s.height := by rw [body]
    refine ⟨by rw [hw]; exact g.width, by rw [hh]; exact g.height, fun hs p => ?_, fun p => ?_, ?_, ?_, fun l => ?_, ?_⟩
    · rw [port, hw, hh]; exact g.contexts (by rw [body] at hs; exact hs) p
    · rw [port, hw, hh]; exact g.entries p
    · rw [hw, hh, show t.queue = s.queue by rw [body]]; exact g.requests
    · rw [hw, hh, show t.zone = s.zone by rw [body]; rfl]; exact g.zones
    · rw [hw, hh, (lane l).2.2.2]; exact g.lanes l
    · rw [hh, show t.scan = s.scan by rw [body]]; exact g.mark

/-! ## The Survey Engine -/

/-- The head of the survey list is surveyed from its origin on: the claims stay sound (R97, R115). -/
theorem claims_surveyStart (h : Placed s) (hl : LanesSound s) {rest : List LaneId} {w : Survey}
    (hs : s.survey = none) (hlist : s.surveyList = w.lane :: rest) {f : Lane → Lane}
    (alike : (s.lane w.lane).Alike (f (s.lane w.lane))) (pos : w.pos = some (s.lane w.lane).rect.origin)
    (mode : w.mode = s.modeRecord (s.lane w.lane).requestedMode) :
    ClaimsSound (((s.mapLane w.lane f).withSurveyList rest).withSurvey (some w)) := by
  have eng := h.engines
  have c := h.claims
  have hpend : (s.lane w.lane).state = .pending := eng.pending w.lane (by rw [hlist]; simp)
  have hnodup : w.lane ∉ rest ∧ rest.Nodup := List.nodup_cons.1 (hlist ▸ hl.once.1)
  obtain ⟨hhead, horder⟩ := List.pairwise_cons.1 (hlist ▸ c.holdOrder)
  have unnamed : s.Unnamed w.lane := fun x hx hn => by
    rcases (c.named x w.lane hx hn).2 with hc | hc | hc | hc <;> simp [hpend] at hc
  have self : (((s.mapLane w.lane f).withSurveyList rest).withSurvey (some w)).lane w.lane = f (s.lane w.lane) :=
    (s.setLane_lane w.lane w.lane _).trans (if_pos rfl)
  have other {k : LaneId} (hk : k ≠ w.lane) :
      (((s.mapLane w.lane f).withSurveyList rest).withSurvey (some w)).lane k = s.lane k :=
    (s.setLane_lane w.lane k _).trans (if_neg hk)
  have notPending {k : LaneId} {st : LaneState} (hk : (s.lane k).state = st) (hne : st ≠ .pending) : k ≠ w.lane := by
    rintro rfl
    exact hne (hk.symm.trans hpend)
  have named {x : Pos} {k : LaneId} (hx : x.1 < 2048) (hn : (s.pixel x).lane = some k) : k ≠ w.lane := by
    rintro rfl
    exact unnamed x hx hn
  have inUse {k : LaneId}
      (hk : ((((s.mapLane w.lane f).withSurveyList rest).withSurvey (some w)).lane k).state ≠ .free) :
      (s.lane k).state ≠ .free ∧
        (s.lane k).Alike ((((s.mapLane w.lane f).withSurveyList rest).withSurvey (some w)).lane k) := by
    by_cases hkl : k = w.lane
    · subst hkl; rw [self]; exact ⟨by simp [hpend], alike⟩
    · rw [other hkl] at hk ⊢; exact ⟨hk, .refl _⟩
  exact {
    named := fun x k hx hn => by
      have hk := named hx hn
      rw [other hk]; exact c.named x k hx hn
    surveyed := fun v hv => by
      cases hv
      rw [self, alike.rect]
      refine ⟨fun z hz => ?_, fun x z hx hn _ => absurd rfl (named hx hn)⟩
      rw [pos] at hz
      cases hz
      exact Rect.has_origin (h.geometry.lanes w.lane).order
    retired := fun v hv => by
      rw [other (notPending (eng.retiring v hv) (by decide))]; exact c.retired v hv
    counted := fun k hk hr => by
      obtain ⟨hf, al⟩ := inUse hk
      rw [al.claimed]; exact c.counted k hf hr
    holdApart := fun j k hjk hj hk hpj hpk => by
      obtain ⟨hj, aj⟩ := inUse hj
      obtain ⟨hk, ak⟩ := inUse hk
      rw [aj.rect, ak.rect]
      exact c.holdApart j k hjk hj hk (aj.policy ▸ hpj) (ak.policy ▸ hpk)
    holdBusy := fun k hp => by
      by_cases hkl : k = w.lane
      · subst hkl
        rw [self] at hp ⊢
        exact alike.busy_of_hold (c.holdBusy w.lane) hp
      · rw [other hkl] at hp ⊢; exact c.holdBusy k hp
    holdFirst := fun j k hjk hj hp hkf hkp => by
      obtain ⟨hkf', ak⟩ := inUse hkf
      rw [ak.rect]
      by_cases hkl : k = w.lane
      · subst hkl
        rw [other hjk] at hj hp ⊢
        have hjst : (s.lane j).state = .pending := hj.resolve_right fun hc => by
          have hn := (hl.surveyed j).2 hc
          rw [hs] at hn
          exact absurd hn (by simp)
        have hmem : j ∈ rest := by
          have hm := (hl.pending j).2 hjst
          rw [hlist] at hm
          exact (List.mem_cons.1 hm).resolve_left hjk
        exact hhead j hmem hp
      · rw [other hkl] at hkp
        by_cases hjl : j = w.lane
        · subst hjl
          rw [self] at hp ⊢
          rw [alike.rect]
          exact c.holdFirst w.lane k hjk (.inl hpend) (alike.policy ▸ hp) hkf' hkp
        · rw [other hjl] at hj hp ⊢
          exact c.holdFirst j k hjk hj hp hkf' hkp
    holdOrder := by
      change rest.Pairwise _
      refine horder.imp_of_mem fun {j k} hj hk hjk => ?_
      rw [other (fun hc => hnodup.1 (hc ▸ hj)), other (fun hc => hnodup.1 (hc ▸ hk))]
      exact hjk
    tableHeld := fun k hk => c.tableHeld k (inUse hk).1
    promoteTargets := c.promoteTargets
    surveyMode := fun v hv => by
      cases hv
      rw [self, alike.requestedMode]; exact mode
    unknownSurveyed := fun v x hv hx hn _ => by
      cases hv
      exact absurd rfl (named hx hn)
    unknownAccepted := fun x k hx hn hu hst => by
      have hk := named hx hn
      rw [other hk] at hst ⊢
      exact c.unknownAccepted x k hx hn hu hst }

/-- SURVEY_START (R97). -/
theorem surveyStart (h : Placed s) (hl : LanesSound s) {rest : List LaneId} {w : Survey} (hs : s.survey = none)
    (hlist : s.surveyList = w.lane :: rest) {f : Lane → Lane} (alike : (s.lane w.lane).Alike (f (s.lane w.lane)))
    (state : (f (s.lane w.lane)).state = .survey) (pos : w.pos = some (s.lane w.lane).rect.origin)
    (mode : w.mode = s.modeRecord (s.lane w.lane).requestedMode) :
    Placed (((s.mapLane w.lane f).withSurveyList rest).withSurvey (some w)) := by
  have eng := h.engines
  have hpend : (s.lane w.lane).state = .pending := eng.pending w.lane (by rw [hlist]; simp)
  have hnodup : w.lane ∉ rest := (List.nodup_cons.1 (hlist ▸ hl.once.1)).1
  have lane (k : LaneId) : (((s.mapLane w.lane f).withSurveyList rest).withSurvey (some w)).lane k =
      if k = w.lane then f (s.lane w.lane) else s.lane k := s.setLane_lane w.lane k _
  have notPending {k : LaneId} (hk : (s.lane k).state ≠ .pending) : k ≠ w.lane := by
    rintro rfl
    exact hk hpend
  refine h.ofRecords rfl (fun k => ?_) (h.stores.congr rfl rfl)
    ⟨fun v hv => ?_, fun v hv => ?_, fun k hk => ?_, fun k hk => ?_⟩ (h.claims_surveyStart hl hs hlist alike pos mode)
  · rw [lane]
    split
    · rename_i hk
      subst hk
      exact ⟨fun _ => by simp [hpend], alike.owner, alike.tag, alike.rect⟩
    · exact ⟨id, rfl, rfl, rfl⟩
  · cases hv
    rw [lane, if_pos rfl]; exact state
  · have hst := eng.retiring v hv
    rw [lane, if_neg (notPending (by simp [hst]))]; exact hst
  · rw [lane, if_neg fun hc : k = w.lane => hnodup (hc ▸ hk)]
    exact eng.pending k (by rw [hlist]; exact List.mem_cons_of_mem _ hk)
  · have hst := eng.listed k hk
    rw [lane, if_neg (notPending (by simp [hst]))]; exact hst

/-- The survey of a lane moves on past positions that it has claimed (R98). -/
theorem moveSurvey (h : Placed s) {w : Survey} (hw : s.survey = some w) (v : Survey) (lane : v.lane = w.lane)
    (mode : v.mode = w.mode) (has : ∀ z, v.pos = some z → (s.lane w.lane).rect.has z = true)
    (before : ∀ x z, x.1 < 2048 → (s.pixel x).lane = some w.lane → v.pos = some z → panelBefore x z) :
    Placed (s.withSurvey (some v)) := by
  have eng := h.engines
  have c := h.claims
  have surveying : (s.lane v.lane).state = .survey := by rw [lane]; exact eng.surveying w hw
  refine h.ofRecords rfl (fun k => ⟨id, rfl, rfl, rfl⟩) (h.stores.congr rfl rfl)
    ⟨fun u hu => ?_, eng.retiring, eng.pending, eng.listed⟩ { c with
      surveyed := fun u hu => ?_
      surveyMode := fun u hu => ?_
      unknownSurveyed := fun u x hu hx hn hs => ?_ } <;> cases hu
  · exact surveying
  · exact ⟨fun z hz => (congrArg (fun l => (s.lane l).rect.has z) lane).trans (has z hz),
      fun x z hx hn hz => before x z hx (lane ▸ hn) hz⟩
  · exact mode.trans ((c.surveyMode w hw).trans (by rw [← lane]; rfl))
  · have hn' : (s.pixel x).lane = some w.lane := lane ▸ hn
    have := c.unknownSurveyed w x hw hx hn' hs
    rw [mode, lane]
    exact this

/-- The walk of a lane of HOLD policy meets no claim (R115). -/
theorem hold_meets_none (h : Placed s) {w : Survey} {x : Pos} (hw : s.survey = some w) (hp : w.pos = some x)
    (hpol : (s.lane w.lane).policy = .hold) : (s.pixel x).lane = none := by
  have c := h.claims
  have hin := (c.surveyed w hw).1 x hp
  have hx : x.1 < 2048 := by
    have hr := (h.geometry.lanes w.lane).inside.1
    have hwid := h.geometry.width.2
    rw [Rect.has_iff] at hin
    omega
  cases hn : (s.pixel x).lane with
  | none => rfl
  | some k =>
    exfalso
    by_cases hk : k = w.lane
    · subst hk
      have := (c.surveyed w hw).2 x x hx hn hp
      simp [panelBefore] at this
    · obtain ⟨hkin, hst⟩ := c.named x k hx hn
      have hclear := c.holdFirst w.lane k (Ne.symm hk) (.inr (h.engines.surveying w hw)) hpol
        (by rcases hst with hst | hst | hst | hst <;> simp [hst])
        (by rcases hst with hst | hst | hst | hst <;> simp [hst])
      rw [Rect.meets_of_has hin hkin] at hclear
      exact absurd hclear (by simp)

/-- A position of a lane's rectangle is one of the store's (R2, R52). -/
theorem column_lt (h : Placed s) {l : LaneId} {x : Pos} (hx : (s.lane l).rect.has x = true) : x.1 < 2048 := by
  have hr := (h.geometry.lanes l).inside.1
  have hwid := h.geometry.width.2
  rw [Rect.has_iff] at hx
  omega

/-- A claim of the lane being surveyed, at a position that its walk has passed (R104). -/
theorem claim (h : Placed s) {w : Survey} (hw : s.survey = some w) {x : Pos} {M : Lane} {r : PixelRecord}
    (hx : (s.lane w.lane).rect.has x = true) (free : (s.pixel x).lane = none)
    (before : ∀ z, w.pos = some z → panelBefore x z)
    (refused : (s.pixel x).shown = none → w.mode.acceptsUnknown = true ∨ w.mode.promote ≠ none)
    (hM : ClaimedOne (s.lane w.lane) M (s.pixel x).shown.isNone) (hr : r.lane = some w.lane)
    (shown : r.shown = (s.pixel x).shown) (legal : r.Legal) : Placed ((s.setLane w.lane M).setPixel x r) := by
  have hx1 := h.column_lt hx
  have eng := h.engines
  have c := h.claims
  have hwf := ((Memory.wf_iff s).1 h.stores.form).2
  have hst := eng.surveying w hw
  have pixel {y : Pos} (hy : y.1 < 2048) : ((s.setLane w.lane M).setPixel x r).pixel y =
      if y = x then r else s.pixel y := (s.setLane w.lane M).setPixel_pixel x y r hwf hx1 hy
  have hself : ((s.setLane w.lane M).setPixel x r).lane w.lane = M := (s.setLane_lane w.lane w.lane M).trans (if_pos rfl)
  have kept (k : LaneId) : (s.lane k).Kept (((s.setLane w.lane M).setPixel x r).lane k) := by
    rw [show ((s.setLane w.lane M).setPixel x r).lane k = if k = w.lane then M else s.lane k from
      s.setLane_lane w.lane k M]
    split
    · rename_i hk; subst hk; exact hM.kept
    · exact ⟨rfl, rfl, rfl, rfl, rfl, rfl, rfl, rfl⟩
  have named {y : Pos} {k : LaneId} (hy : y.1 < 2048)
      (hn : (((s.setLane w.lane M).setPixel x r).pixel y).lane = some k) :
      (y = x ∧ k = w.lane) ∨ (s.pixel y).lane = some k ∧
        ((s.setLane w.lane M).setPixel x r).pixel y = s.pixel y := by
    rw [pixel hy] at hn ⊢
    split at hn
    · rename_i hyx; exact .inl ⟨hyx, (Option.some.inj (hr.symm.trans hn)).symm⟩
    · exact .inr ⟨hn, if_neg ‹_›⟩
  have notSurvey {k : LaneId} {st : LaneState} (hk : (s.lane k).state = st) (hne : st ≠ .survey) : k ≠ w.lane := by
    rintro rfl
    exact hne (hk.symm.trans hst)
  refine h.ofRecords rfl (fun k => ⟨fun hf => (kept k).state ▸ hf, (kept k).owner, (kept k).tag, (kept k).rect⟩)
    (StoresSound.setPixel (h.stores.congr (t := s.setLane w.lane M) rfl rfl) x r legal)
    ⟨fun v hv => (kept _).state.trans (eng.surveying v hv), fun v hv => (kept _).state.trans (eng.retiring v hv),
      fun k hk => (kept k).state.trans (eng.pending k hk), fun k hk => (kept k).state.trans (eng.listed k hk)⟩ {
    named := fun y k hy hn => ?_
    surveyed := fun v hv => ?_
    retired := fun v hv => ?_
    counted := fun k hk hne => ?_
    holdApart := fun j k hjk hj hk hpj hpk => ?_
    holdBusy := fun k hp => ?_
    holdFirst := fun j k hjk hj hp hkf hkp => ?_
    holdOrder := c.holdOrder.imp fun {j k} hjk hp => ?_
    tableHeld := fun k hk => c.tableHeld k ((kept k).state ▸ hk)
    promoteTargets := c.promoteTargets
    surveyMode := fun v hv => (c.surveyMode v hv).trans (congrArg s.modeRecord (kept _).requestedMode.symm)
    unknownSurveyed := fun v y hv hy hn hu => ?_
    unknownAccepted := fun y k hy hn hu hne => ?_ }
  · rw [(kept k).rect, (kept k).state]
    rcases named hy hn with ⟨rfl, rfl⟩ | ⟨hn, -⟩
    · exact ⟨hx, .inl hst⟩
    · exact c.named y k hy hn
  · obtain rfl : w = v := Option.some.inj (hw.symm.trans hv)
    rw [(kept w.lane).rect]
    refine ⟨(c.surveyed w hw).1, fun y z hy hn hz => ?_⟩
    rcases named hy hn with ⟨rfl, -⟩ | ⟨hn, -⟩
    · exact before z hz
    · exact (c.surveyed w hw).2 y z hy hn hz
  · rw [(kept v.lane).rect]
    refine ⟨(c.retired v hv).1, fun y hy hn => ?_⟩
    rcases named hy hn with ⟨-, hk⟩ | ⟨hn, -⟩
    · exact absurd hk (notSurvey (eng.retiring v hv) (by decide))
    · exact (c.retired v hv).2 y hy hn
  · have hold := c.counted k ((kept k).state ▸ hk) hne
    have hcount : ((s.setLane w.lane M).setPixel x r).pixels.countP (fun e => decide (e.2.lane = some k)) + 0 =
        s.pixels.countP (fun e => decide (e.2.lane = some k)) + if k = w.lane then 1 else 0 := by
      have hc := Store.countP_write PixelRecord.swept s.pixels (address x) r (fun e => decide (e.lane = some k)) rfl none hwf
      have hfree : decide ((Store.read PixelRecord.swept s.pixels (address x)).lane = some k) = false := by
        rw [show (Store.read PixelRecord.swept s.pixels (address x)).lane = none from free]; rfl
      simp only [hfree, hr, Option.some.injEq, decide_eq_true_eq, eq_comm (a := w.lane)] at hc
      exact hc
    rw [← hold, Nat.add_zero] at hcount
    rw [hcount]
    by_cases hk : k = w.lane
    · subst hk; rw [hself, hM.same, if_pos rfl]
    · rw [show ((s.setLane w.lane M).setPixel x r).lane k = s.lane k from
        (s.setLane_lane w.lane k M).trans (if_neg hk), if_neg hk, Nat.add_zero]
  · rw [(kept j).rect, (kept k).rect]
    exact c.holdApart j k hjk ((kept j).state ▸ hj) ((kept k).state ▸ hk) ((kept j).policy ▸ hpj) ((kept k).policy ▸ hpk)
  · rw [(kept k).busySkipped]
    exact c.holdBusy k ((kept k).policy ▸ hp)
  · rw [(kept j).rect, (kept k).rect]
    exact c.holdFirst j k hjk ((kept j).state ▸ hj) ((kept j).policy ▸ hp) ((kept k).state ▸ hkf) ((kept k).state ▸ hkp)
  · rw [(kept j).rect, (kept k).rect]
    exact hjk ((kept k).policy ▸ hp)
  · obtain rfl : w = v := Option.some.inj (hw.symm.trans hv)
    rw [hself, hM.unknownClaimed]
    rcases named hy hn with ⟨rfl, -⟩ | ⟨hn, hp⟩
    · rw [pixel hy, if_pos rfl, shown] at hu
      rw [hu]
      exact ⟨Nat.succ_pos _, refused hu⟩
    · rw [hp] at hu
      obtain ⟨hpos, hmode⟩ := c.unknownSurveyed w y hw hy hn hu
      refine ⟨?_, hmode⟩
      split
      · exact Nat.succ_pos _
      · exact hpos
  · rw [(kept k).finalMode]
    rcases named hy hn with ⟨-, rfl⟩ | ⟨hn, hp⟩
    · exact absurd ((kept w.lane).state.trans hst) hne
    · rw [hp] at hu
      exact c.unknownAccepted y k hy hn hu ((kept k).state ▸ hne)

end Placed

end Sys2Proof.Machine
end

section
/-! The visits and ends of the engines (R98, R104, R107 to R109, R129 to R134, R137 to R143) keep places and claims
sound.
-/

namespace Sys2Proof.Machine

/-- A record visit reads and leaves the walk of the survey. -/
theorem State.visitRecord_withSurvey (s : State) (v : Option Survey) (w : Survey) (x : Pos) (u : Level) :
    (s.withSurvey v).visitRecord w x u = (s.visitRecord w x u).withSurvey v := by
  have hv : (s.withSurvey v).verdict w x (quantize w.mode.levels u) = s.verdict w x (quantize w.mode.levels u) := rfl
  unfold State.visitRecord
  simp only [hv]
  split <;> rfl

/-- A report is an event of the link. -/
theorem LinkOnly.reportLane (s : State) (l : LaneId) (d : DoneRecord) : LinkOnly s (s.reportLane l d) := by
  unfold State.reportLane
  split
  · exact .appendDone s _ d
  · exact .refl s

namespace Placed

variable {s : State}

/-! ## SURVEY_VISIT -/

/-- A record visit at a position that the walk has passed (R100 to R104). -/
theorem visitRecord (h : Placed s) {w v : Survey} (hw : s.survey = some v) (hlane : v.lane = w.lane)
    (hmode : v.mode = w.mode) {x : Pos} (hx : (s.lane w.lane).rect.has x = true)
    (before : ∀ z, v.pos = some z → panelBefore x z)
    (hold : (s.lane w.lane).policy = .hold → (s.pixel x).lane = none) (u : Level) :
    Placed (s.visitRecord w x u) := by
  by_cases hn : (s.pixel x).lane = none
  · by_cases hz : s.zoned w x
    · rw [State.visitRecord_zoneSkip s w x u hn hz]
      exact h.mapLane w.lane (fun L => { L with zoneSkipped := L.zoneSkipped + 1 })
        ⟨rfl, rfl, rfl, rfl, rfl, rfl, rfl, fun _ => rfl⟩ rfl rfl
    by_cases hu : s.unknownRefused w x
    · rw [State.visitRecord_unknownSkip s w x u hn hz hu]
      exact h.mapLane w.lane (fun L => { L with unknownSkipped := L.unknownSkipped + 1 })
        ⟨rfl, rfl, rfl, rfl, rfl, rfl, rfl, fun _ => rfl⟩ rfl rfl
    by_cases hk : s.unchangedLeft w x u
    · rw [State.visitRecord_unchanged s w x u hn hz hk]; exact h
    rw [State.visitRecord_claim s w x u hn hz hu hk, ← hlane]
    rw [← hlane] at hx
    obtain ⟨hsame, -, -, hunknown, hknown, -⟩ :=
      s.claimCounts_fields w (s.pixel x) (quantize w.mode.levels u) (s.lane v.lane)
    refine h.claim hw hx hn before (fun hs => ?_) ⟨hsame, ?_⟩ rfl rfl ?_
    · rw [hmode]
      by_contra hc
      rw [not_or, not_not] at hc
      exact hu ⟨hs, by simpa using hc.1, hc.2⟩
    · cases hs : (s.pixel x).shown with
      | none => exact (hunknown hs).1
      | some y => exact hknown (by simp [hs])
    · have hleg := h.stores.pixel_legal x
      exact ⟨hleg.residue, hleg.wear, fun hc => absurd hc (by simp [PixelRecord.claimedBy])⟩
  · rw [State.visitRecord_busy s w x u hn]
    refine h.mapLane w.lane (fun L => { L with busySkipped := L.busySkipped + 1 })
      ⟨rfl, rfl, rfl, rfl, rfl, rfl, rfl, fun hp => absurd (hold hp) hn⟩ rfl rfl

/-- A visit is finished and the walk moves on (R98). -/
theorem finishVisit (h : Placed s) {w : Survey} (hw : s.survey = some w) {x : Pos} (hx : w.pos = some x) (u : Level) :
    Placed (s.finishVisit w x u) := by
  have c := h.claims
  have hin := (c.surveyed w hw).1 x hx
  have hm : Placed (s.withSurvey (some { w with pos := (s.lane w.lane).rect.nextPos x, read := none })) := by
    refine h.moveSurvey hw _ rfl rfl (fun z hz => Rect.nextPos_has hz hin) fun y z hy hn hz => ?_
    rw [Rect.before_nextPos hz hin (c.named y w.lane hy hn).1]
    exact .inl ((c.surveyed w hw).2 y x hy hn hx)
  unfold State.finishVisit
  rw [← State.visitRecord_withSurvey]
  refine hm.visitRecord (w := w) (v := { w with pos := (s.lane w.lane).rect.nextPos x, read := none }) rfl rfl rfl hin
    (fun z hz => ?_) (fun hp => h.hold_meets_none hw hx hp) u
  rw [Rect.before_nextPos hz hin hin]
  exact .inr rfl

/-! ## SURVEY_END -/

/-- The lane of a survey that claimed nothing ends EMPTY (R109). -/
theorem endEmpty (h : Placed s) {w : Survey} (hw : s.survey = some w) (hc : (s.lane w.lane).claimed = 0)
    (d : DoneRecord) : Placed ((s.closeSurvey.reportLane w.lane d).setLane w.lane Lane.rest) := by
  have eng := h.engines
  have hst := eng.surveying w hw
  have notSurvey {k : LaneId} {st : LaneState} (hk : (s.lane k).state = st) (hne : st ≠ .survey) : k ≠ w.lane := by
    rintro rfl
    exact hne (hk.symm.trans hst)
  have frame := ((LaneOnly.closeSurvey s).trans (.reportLane _ w.lane d)).trans (.setLane _ w.lane Lane.rest)
  have hclose : s.closeSurvey = (s.setLane w.lane ((s.lane w.lane).decided w.mode)).withSurvey none := by
    rw [State.closeSurvey_eq, hw]
  have r := LinkOnly.reportLane s.closeSurvey w.lane d
  have hl (k : LaneId) : ((s.closeSurvey.reportLane w.lane d).setLane w.lane Lane.rest).lane k =
      if k = w.lane then Lane.rest else s.lane k := by
    rw [State.setLane_lane]
    split
    · rfl
    · rename_i hk
      rw [r.lane, hclose, State.withSurvey_lane, State.setLane_lane, if_neg hk]
  have hsv : ((s.closeSurvey.reportLane w.lane d).setLane w.lane Lane.rest).survey = none := by
    rw [State.setLane_survey, r.survey, hclose, State.withSurvey_survey]
  have hrt : ((s.closeSurvey.reportLane w.lane d).setLane w.lane Lane.rest).retire = s.retire := by
    rw [State.setLane_retire, r.retire, hclose, State.withSurvey_retire, State.setLane_retire]
  have hrl : ((s.closeSurvey.reportLane w.lane d).setLane w.lane Lane.rest).retireList = s.retireList := by
    rw [State.setLane_retireList, r.retireList, hclose, State.withSurvey_retireList, State.setLane_retireList]
  have hsl : ((s.closeSurvey.reportLane w.lane d).setLane w.lane Lane.rest).surveyList = s.surveyList := by
    rw [State.setLane_surveyList, r.surveyList, hclose, State.withSurvey_surveyList, State.setLane_surveyList]
  have hq : ((s.closeSurvey.reportLane w.lane d).setLane w.lane Lane.rest).queue = s.queue := by
    rw [State.setLane_queue, r.queue, hclose, State.withSurvey_queue, State.setLane_queue]
  refine h.endLane frame w.lane ?_ hl (fun v hv => by rw [hsv] at hv; exact absurd hv (by simp)) hsl
    (fun hm => notSurvey (eng.pending _ hm) (by decide) rfl) (.inl hrt)
    (fun v hv => notSurvey (eng.retiring v (by rw [← hrt, hv])) (by decide))
    (fun k hk => ⟨by rwa [hrl] at hk, notSurvey (eng.listed k (by rwa [hrl] at hk)) (by decide)⟩) hq
  refine (s.countP_eq_zero_iff ((Memory.wf_iff s).1 h.stores.form).2 w.lane).1 ?_
  rw [← h.claims.counted w.lane (by simp [hst]) fun hr => ?_, hc]
  obtain ⟨v, hv, hvl⟩ := Option.map_eq_some_iff.1 hr
  exact notSurvey (eng.retiring v hv) (by decide) hvl

/-- The lane of a survey that claimed pixels to drive is ARMED (R108, R116). -/
theorem armSurveyed (h : Placed s) {w : Survey} (hw : s.survey = some w) :
    Placed (s.closeSurvey.mapLane w.lane fun r => { r with state := .armed, frameIndex := 0, abort := false }) := by
  have hM := h.leaveSurvey hw { (s.lane w.lane).decided w.mode with state := .armed, frameIndex := 0, abort := false }
    s.retireList (((s.lane w.lane).decided_alike w.mode).trans ⟨rfl, rfl, rfl, rfl, rfl, rfl, rfl, fun _ => rfl⟩)
    (.inl rfl) rfl fun k hk => .inl hk
  have heq : s.closeSurvey.mapLane w.lane (fun r => { r with state := .armed, frameIndex := 0, abort := false }) =
      (((s.withSurvey none).setLane w.lane
        { (s.lane w.lane).decided w.mode with state := .armed, frameIndex := 0, abort := false }).withRetireList
        s.retireList) := by
    rw [State.closeSurvey_eq, hw]
    simp only [State.mapLane_eq, State.withSurvey_lane, State.setLane_lane, if_true]
    simp [State.setLane, State.withLanes, State.withSurvey, State.withRetireList]
  rw [heq]
  exact hM

/-! ## The frame walk -/

/-- The claims stay sound where every record keeps its claim and its shown level, and every lane only counts clips. -/
theorem claims_ofRecords {t : State} (c : ClaimsSound s)
    (record : ∀ x, x.1 < 2048 → (t.pixel x).lane = (s.pixel x).lane ∧ (t.pixel x).shown = (s.pixel x).shown)
    (count : ∀ l, t.pixels.countP (fun e => decide (e.2.lane = some l)) =
      s.pixels.countP fun e => decide (e.2.lane = some l))
    (lane : ∀ k, (s.lane k).Kept (t.lane k) ∧ (t.lane k).claimed = (s.lane k).claimed ∧
      (t.lane k).unknownClaimed = (s.lane k).unknownClaimed)
    (table : t.table = s.table) (survey : t.survey = s.survey) (retire : t.retire = s.retire)
    (surveyList : t.surveyList = s.surveyList) : ClaimsSound t := by
  have kept (k : LaneId) : (s.lane k).Kept (t.lane k) := (lane k).1
  have mode (m : Nat) : t.modeRecord m = s.modeRecord m := by rw [State.modeRecord, table]; rfl
  refine {
    named := fun x l hx hn => ?_
    surveyed := fun w hw => ?_
    retired := fun w hw => ?_
    counted := fun l hl hr => ?_
    holdApart := fun j k hjk hj hk hpj hpk => ?_
    holdBusy := fun k hp => ?_
    holdFirst := fun j k hjk hj hp hkf hkp => ?_
    holdOrder := ?_
    tableHeld := fun k hk => ?_
    promoteTargets := fun u m x hu hm hp => ?_
    surveyMode := fun w hw => ?_
    unknownSurveyed := fun w x hw hx hn hu => ?_
    unknownAccepted := fun x k hx hn hu hst => ?_ }
  · rw [(kept l).rect, (kept l).state]
    exact c.named x l hx ((record x hx).1 ▸ hn)
  · rw [survey] at hw
    rw [(kept w.lane).rect]
    exact ⟨(c.surveyed w hw).1, fun x z hx hn hz => (c.surveyed w hw).2 x z hx ((record x hx).1 ▸ hn) hz⟩
  · rw [retire] at hw
    rw [(kept w.lane).rect]
    exact ⟨(c.retired w hw).1, fun x hx hn => (c.retired w hw).2 x hx ((record x hx).1 ▸ hn)⟩
  · rw [(lane l).2.1, count]
    exact c.counted l ((kept l).state ▸ hl) (retire ▸ hr)
  · rw [(kept j).rect, (kept k).rect]
    exact c.holdApart j k hjk ((kept j).state ▸ hj) ((kept k).state ▸ hk) ((kept j).policy ▸ hpj) ((kept k).policy ▸ hpk)
  · rw [(kept k).busySkipped]
    exact c.holdBusy k ((kept k).policy ▸ hp)
  · rw [(kept j).rect, (kept k).rect]
    exact c.holdFirst j k hjk ((kept j).state ▸ hj) ((kept j).policy ▸ hp) ((kept k).state ▸ hkf) ((kept k).state ▸ hkp)
  · rw [surveyList]
    refine c.holdOrder.imp fun {j k} hjk hp => ?_
    rw [(kept j).rect, (kept k).rect]
    exact hjk ((kept k).policy ▸ hp)
  · rw [table]; exact c.tableHeld k ((kept k).state ▸ hk)
  · rw [mode]; exact c.promoteTargets u m x (table ▸ hu) hm hp
  · rw [survey] at hw
    rw [mode, (kept w.lane).requestedMode]
    exact c.surveyMode w hw
  · rw [survey] at hw
    rw [(lane w.lane).2.2]
    exact c.unknownSurveyed w x hw hx ((record x hx).1 ▸ hn) ((record x hx).2 ▸ hu)
  · rw [mode, (kept k).finalMode]
    exact c.unknownAccepted x k hx ((record x hx).1 ▸ hn) ((record x hx).2 ▸ hu) ((kept k).state ▸ hst)

/-- The frame walk steps residues and counts clips; no claim changes (R8, R138 to R140). -/
theorem drive (h : Placed s) (visits : Pos → Bool) : Placed (s.drive visits) := by
  obtain ⟨lanes, hd, hlane⟩ := s.drive_eq visits
  have lane (k : LaneId) : (s.drive visits).lane k =
      { s.lane k with saturated := min 65535 ((s.lane k).saturated + s.clips visits k) } := by
    rw [← hlane k, hd]; rfl
  have kept (k : LaneId) : (s.lane k).Kept ((s.drive visits).lane k) ∧
      ((s.drive visits).lane k).claimed = (s.lane k).claimed ∧
      ((s.drive visits).lane k).unknownClaimed = (s.lane k).unknownClaimed := by
    rw [lane]
    exact ⟨⟨rfl, rfl, rfl, rfl, rfl, rfl, rfl, rfl⟩, rfl, rfl⟩
  have engines : (s.drive visits).survey = s.survey ∧ (s.drive visits).retire = s.retire ∧
      (s.drive visits).surveyList = s.surveyList ∧ (s.drive visits).retireList = s.retireList ∧
      (s.drive visits).table = s.table := by
    rw [hd]; exact ⟨rfl, rfl, rfl, rfl, rfl⟩
  obtain ⟨hsv, hrt, hsl, hrl, htb⟩ := engines
  have state (k : LaneId) := (kept k).1.state
  have eng := h.engines
  refine h.ofRecords (by rw [hd]; rfl) (fun k => ⟨fun hf => state k ▸ hf, (kept k).1.owner, (kept k).1.tag,
    (kept k).1.rect⟩) (h.stores.drive visits) ⟨fun w hw => (state _).trans (eng.surveying w (hsv ▸ hw)),
    fun w hw => (state _).trans (eng.retiring w (hrt ▸ hw)), fun k hk => (state k).trans (eng.pending k (hsl ▸ hk)),
    fun k hk => (state k).trans (eng.listed k (hrl ▸ hk))⟩
    (claims_ofRecords h.claims (fun x hx => ?_) (fun l => ?_) kept htb hsv hrt hsl)
  · rw [s.drive_pixel visits x hx]
    split <;> exact ⟨rfl, rfl⟩
  · rw [hd, State.withPixels_pixels, List.countP_map]
    refine List.countP_congr fun e _ => ?_
    simp only [Function.comp]
    split <;> exact Iff.rfl

/-! ## The frame events -/

/-- A frame begins inside the panel: the frame-mark row in force is one of its rows (R137, R144). -/
theorem beginFrame (h : Placed s) (c : Scanner) (hr : c.markRow = s.scan.markRow)
    (hp : c.pendingMark = s.scan.pendingMark) : Placed (s.withScan c.beginFrame) := by
  refine h.withScan _ ⟨?_, by simp [Scanner.beginFrame]⟩
  cases hm : s.scan.pendingMark with
  | none => simpa [Scanner.beginFrame, hp, hm, hr] using h.geometry.mark.1
  | some r => simpa [Scanner.beginFrame, hp, hm] using h.geometry.mark.2 r hm

/-- A change of the scan that leaves the frame-mark rows. -/
theorem sameMark (h : Placed s) (c : Scanner) (hr : c.markRow = s.scan.markRow)
    (hp : c.pendingMark = s.scan.pendingMark) : Placed (s.withScan c) :=
  h.withScan c (by rw [hr, hp]; exact h.geometry.mark)

end Placed

end Sys2Proof.Machine
end

section
/-! The Retire Engine (R129 to R134), and the table and the sweeps while every lane is FREE (R13, R25, R35, R68): places
and claims stay sound.
-/

namespace Sys2Proof.Machine

namespace Placed

variable {s : State}

/-! ## The Retire Engine -/

/-- RETIRE_VISIT: the record at the walk is released when it names the lane walked, and the walk moves on (R129, R131).
-/
theorem retireVisit (h : Placed s) {w : RetireWalk} (hw : s.retire = some w) {x : Pos} (hx : w.pos = some x)
    (r : PixelRecord) (hr : r.lane = none) (legal : r.Legal) :
    Placed ((if (s.pixel x).lane = some w.lane then s.setPixel x r else s).withRetire
      (some { w with pos := (s.lane w.lane).rect.nextPos x })) := by
  have eng := h.engines
  have c := h.claims
  have hin := (c.retired w hw).1 x hx
  have hx1 := h.column_lt hin
  have hwf := ((Memory.wf_iff s).1 h.stores.form).2
  generalize ht : (if (s.pixel x).lane = some w.lane then s.setPixel x r else s) = t
  have body : t = { s with pixels := t.pixels } := by
    rw [← ht]; split <;> rfl
  have stores : StoresSound t := by
    rw [← ht]
    split
    · exact h.stores.setPixel x r legal
    · exact h.stores
  have pixel {y : Pos} (hy : y.1 < 2048) {l : LaneId} (hn : (t.pixel y).lane = some l) :
      t.pixel y = s.pixel y ∧ (l = w.lane → y ≠ x) := by
    rw [← ht] at hn ⊢
    split at hn
    · rename_i hc
      rw [if_pos hc]
      rw [s.setPixel_pixel x y r hwf hx1 hy] at hn ⊢
      split at hn
      · rw [hr] at hn; exact absurd hn (by simp)
      · rename_i hyx
        exact ⟨if_neg hyx, fun _ => hyx⟩
    · rename_i hc
      rw [if_neg hc]
      refine ⟨rfl, ?_⟩
      rintro rfl rfl
      exact hc hn
  have count (l : LaneId) (hl : l ≠ w.lane) : t.pixels.countP (fun e => decide (e.2.lane = some l)) =
      s.pixels.countP fun e => decide (e.2.lane = some l) := by
    rw [← ht]
    split
    · rename_i hc
      have hcount := Store.countP_write PixelRecord.swept s.pixels (address x) r (fun e => decide (e.lane = some l))
        rfl none hwf
      have hold : (Store.read PixelRecord.swept s.pixels (address x)).lane = some w.lane := hc
      simp only [hold, hr, Option.some.injEq, eq_comm (a := w.lane), hl, decide_false, Bool.false_eq_true, if_false,
        Nat.add_zero, reduceCtorEq] at hcount
      exact hcount
    · rfl
  have lane (k : LaneId) : (t.withRetire (some { w with pos := (s.lane w.lane).rect.nextPos x })).lane k = s.lane k := by
    rw [body]; rfl
  have retired : ∀ y, y.1 < 2048 → (t.pixel y).lane = some w.lane →
      ∃ z, (s.lane w.lane).rect.nextPos x = some z ∧ ¬ panelBefore y z := by
    intro y hy hn
    obtain ⟨hp, hne⟩ := pixel hy hn
    rw [hp] at hn
    have hyin := (c.named y w.lane hy hn).1
    obtain ⟨z, hz, hahead⟩ := (c.retired w hw).2 y hy hn
    obtain rfl : x = z := Option.some.inj (hx.symm.trans hz)
    cases hnext : (s.lane w.lane).rect.nextPos x with
    | none =>
      rcases Rect.nextPos_last hnext hyin with hb | he | hf
      · exact absurd hb hahead
      · exact absurd he (hne rfl)
      · rw [hin] at hf; exact absurd hf (by simp)
    | some u =>
      refine ⟨u, rfl, fun hb => ?_⟩
      rcases (Rect.before_nextPos hnext hin hyin).1 hb with hb | he
      · exact hahead hb
      · exact hne rfl he
  refine h.ofRecords (by rw [body]; rfl) (fun k => by rw [lane]; exact ⟨id, rfl, rfl, rfl⟩) (stores.congr rfl rfl)
    ⟨fun v hv => ?_, fun v hv => ?_, fun k hk => ?_, fun k hk => ?_⟩ {
      named := fun y l hy hn => ?_
      surveyed := fun v hv => ?_
      retired := fun v hv => ?_
      counted := fun l hl hne => ?_
      holdApart := ?_, holdBusy := ?_, holdFirst := ?_, holdOrder := ?_, tableHeld := ?_, promoteTargets := ?_
      surveyMode := ?_
      unknownSurveyed := fun v y hv hy hn hu => ?_
      unknownAccepted := fun y l hy hn hu hst => ?_ }
  · rw [lane]; exact eng.surveying v (by rw [body] at hv; exact hv)
  · rw [lane]; cases hv; exact eng.retiring w hw
  · rw [lane]; exact eng.pending k (by rw [body] at hk; exact hk)
  · rw [lane]; exact eng.listed k (by rw [body] at hk; exact hk)
  · rw [lane]; exact c.named y l hy ((pixel hy hn).1 ▸ hn)
  · have hs : s.survey = some v := by rw [body] at hv; exact hv
    rw [lane]
    exact ⟨(c.surveyed v hs).1, fun y z hy hn hz => (c.surveyed v hs).2 y z hy ((pixel hy hn).1 ▸ hn) hz⟩
  · cases hv
    rw [lane]
    exact ⟨fun z hz => Rect.nextPos_has hz hin, retired⟩
  · have hlw : l ≠ w.lane := fun hc => hne (by rw [hc]; rfl)
    rw [lane] at hl ⊢
    refine (c.counted l hl fun hc => ?_).trans (count l hlw).symm
    rw [hw] at hc
    exact hlw (Option.some.inj hc).symm
  · simpa only [lane] using c.holdApart
  · simpa only [lane] using c.holdBusy
  · simpa only [lane] using c.holdFirst
  · rw [body]; exact c.holdOrder
  · rw [body]; exact c.tableHeld
  · rw [body]; exact c.promoteTargets
  · rw [body]; exact c.surveyMode
  · have hs : s.survey = some v := by rw [body] at hv; exact hv
    rw [lane]
    have hp := (pixel hy hn).1
    exact c.unknownSurveyed v y hs hy (hp ▸ hn) (hp ▸ hu)
  · rw [lane] at hst ⊢
    have hp := (pixel hy hn).1
    have := c.unknownAccepted y l hy (hp ▸ hn) (hp ▸ hu) hst
    rw [body]; exact this

/-- RETIRE_WALK_END: the lane walked ends, its pixels all released (R133, R134). -/
theorem endWalk (h : Placed s) {w : RetireWalk} (hw : s.retire = some w) (hpos : w.pos = none) (d : DoneRecord) :
    Placed ((((s.reportLane w.lane d).setLane w.lane Lane.rest).withRetireList
      ((s.reportLane w.lane d).retireList.filter fun k => decide (k ≠ w.lane))).withRetire none) := by
  have eng := h.engines
  have hst := eng.retiring w hw
  have other {k : LaneId} {st : LaneState} (hk : (s.lane k).state = st) (hne : st ≠ .retiring) : k ≠ w.lane := by
    rintro rfl
    exact hne (hk.symm.trans hst)
  have r := LinkOnly.reportLane s w.lane d
  have frame := (((LaneOnly.reportLane s w.lane d).trans (.setLane _ w.lane Lane.rest)).trans
    (.withRetireList _ ((s.reportLane w.lane d).retireList.filter fun k => decide (k ≠ w.lane)))).trans (.withRetire _ none)
  refine h.endLane frame w.lane (fun x hx hn => ?_) (fun k => ?_) (fun v hv => ?_) ?_
    (fun hm => other (eng.pending _ hm) (by decide) rfl) (.inr ⟨rfl, fun v hv => ?_⟩)
    (fun v hv => absurd hv (by simp)) (fun k hk => ?_) ?_
  · obtain ⟨z, hz, -⟩ := (h.claims.retired w hw).2 x hx hn
    rw [hpos] at hz
    exact absurd hz (by simp)
  · rw [State.withRetire_lane, State.withRetireList_lane, State.setLane_lane, r.lane]
  · rw [State.withRetire_survey, State.withRetireList_survey, State.setLane_survey, r.survey] at hv
    exact ⟨hv, other (eng.surveying v hv) (by decide)⟩
  · rw [State.withRetire_surveyList, State.withRetireList_surveyList, State.setLane_surveyList, r.surveyList]
  · rw [Option.some.inj (hv.symm.trans hw)]
  · rw [State.withRetire_retireList, State.withRetireList_retireList, r.retireList] at hk
    obtain ⟨hm, hne⟩ := List.mem_filter.1 hk
    exact ⟨hm, by simpa using hne⟩
  · rw [State.withRetire_queue, State.withRetireList_queue, State.setLane_queue, r.queue]

end Placed

/-! ## While every lane is FREE -/

/-- Every lane is FREE, and no HOLD lane has a busy skipped pixel. -/
theorem ClaimsSound.ofFree {s : State} (free : ∀ l, (s.lane l).state = .free)
    (busy : ∀ l, (s.lane l).policy = .hold → (s.lane l).busySkipped = 0) (eng : EnginesHeld s)
    (unnamed : ∀ l, s.Unnamed l)
    (promote : ∀ (t : Table) (m : ModeRecord) (x : Nat), s.table.table = some t → m ∈ t.modes → m.promote = some x →
      (s.modeRecord x).acceptsUnknown = true) : ClaimsSound s := by
  have idle (w : Survey) (hw : s.survey = some w) : False := eng.survey w hw (free _)
  exact {
    named := fun x l hx hn => absurd hn (unnamed l x hx)
    surveyed := fun w hw => (idle w hw).elim
    retired := fun w hw => absurd (free _) (eng.retire w hw)
    counted := fun l hl => absurd (free l) hl
    holdApart := fun l _ _ hl => absurd (free l) hl
    holdBusy := busy
    holdFirst := fun _ k _ _ _ hk => absurd (free k) hk
    holdOrder := List.Pairwise.imp_of_mem (fun {j _} hj _ _ => absurd (free j) (eng.surveyList j hj))
      (List.pairwise_of_forall (R := fun _ _ => True) (l := s.surveyList) fun _ _ => trivial)
    tableHeld := fun l hl => absurd (free l) hl
    promoteTargets := promote
    surveyMode := fun w hw => (idle w hw).elim
    unknownSurveyed := fun w _ hw => (idle w hw).elim
    unknownAccepted := fun x l hx hn => absurd hn (unnamed l x hx) }

/-- The table may change while every lane is FREE (R25), if its promote targets accept unknown (R33). -/
theorem Placed.withTable {s : State} (h : Placed s) (v : TableUnit) (free : ∀ l, (s.lane l).state = .free)
    (promote : ∀ (t : Table) (m : ModeRecord) (x : Nat), v.table = some t → m ∈ t.modes → m.promote = some x →
      ((s.withTable v).modeRecord x).acceptsUnknown = true) : Placed (s.withTable v) where
  stores := h.stores.congr rfl rfl
  engines := ⟨h.engines.surveying, h.engines.retiring, h.engines.pending, h.engines.listed⟩
  claims := .ofFree free h.claims.holdBusy
    ⟨h.engines.surveying, h.engines.retiring, h.engines.pending, h.engines.listed⟩
    (fun l => h.claims.unnamed (free l)) promote
  tags := h.tags.of_sublist (fun p => by simp [State.streamRequests]) (.refl _) (fun p => .refl _)
  geometry := by
    have g := h.geometry
    exact ⟨g.width, g.height, fun hs p => by simpa using g.contexts hs p, fun p => by simpa using g.entries p,
      g.requests, g.zones, g.lanes, g.mark⟩

/-- A change of the table that keeps the table itself, while it is not VALID (R25, R28). -/
theorem Placed.withPhase {s : State} (h : Placed s) (v : TableUnit) (ht : v.table = s.table.table)
    (hv : s.table.phase ≠ .valid) : Placed (s.withTable v) := by
  refine h.withTable v (fun l => ?_) fun t m x htab hm hp => ?_
  · by_contra hl
    exact hv (h.claims.tableHeld l hl)
  · have hrec : (s.withTable v).modeRecord x = s.modeRecord x := by
      simp only [State.modeRecord, State.withTable_table, ht]
    rw [hrec]
    exact h.claims.promoteTargets t m x (ht ▸ htab) hm hp

end Sys2Proof.Machine
end

section
/-! The effects of the link's commands (R57, R58, R62, R65, R67, R70 to R75, R84 to R88, R144, R179, R180): each keeps
places and claims sound.
-/

namespace Sys2Proof.Machine

/-! ## Port coordinates inside the panel -/

theorem portArea_pos (o : Orientation) {w h : Nat} (hw : 64 ≤ w) (hh : 64 ≤ h) :
    0 < portWidth o w h ∧ 0 < portHeight o w h := by
  cases o <;> simp only [portWidth, portHeight] <;> omega

/-- A port position of the port area lies on the panel (R55, R56). -/
theorem toPanel_lt (c : PortContext) {w h : Nat} {x : Pos} (hx : x.1 < portWidth c.orientation w h)
    (hy : x.2 < portHeight c.orientation w h) : (toPanel c w h x).1 < w ∧ (toPanel c w h x).2 < h := by
  unfold toPanel
  cases ho : c.orientation <;> cases c.mirror <;> simp only [ho, portWidth, portHeight] at hx hy ⊢ <;>
    simp <;> omega

/-- A rectangle of the port area is a rectangle of the panel (R56). -/
theorem rectToPanel_fits (c : PortContext) {w h : Nat} {r : Rect}
    (hr : r.Fits (portWidth c.orientation w h) (portHeight c.orientation w h)) : (rectToPanel c w h r).Fits w h := by
  have h0 := toPanel_lt c (x := (r.x0, r.y0)) (Nat.lt_of_le_of_lt hr.order.1 hr.inside.1)
    (Nat.lt_of_le_of_lt hr.order.2 hr.inside.2)
  have h1 := toPanel_lt c (x := (r.x1, r.y1)) hr.inside.1 hr.inside.2
  simp only [rectToPanel]
  exact ⟨⟨by simp only; omega, by simp only; omega⟩, by simp only; omega, by simp only; omega⟩

/-- A rectangle in order, clamped to the port area, fits it (R57). -/
theorem clampToArea_fits (c : PortContext) {w h : Nat} (hw : 64 ≤ w) (hh : 64 ≤ h) {r : Rect} (hr : r.ordered = true) :
    (clampToArea c w h r).Fits (portWidth c.orientation w h) (portHeight c.orientation w h) := by
  obtain ⟨h1, h2⟩ := portArea_pos c.orientation hw hh
  simp only [Rect.ordered, Bool.and_eq_true, decide_eq_true_eq] at hr
  simp only [clampToArea]
  exact ⟨⟨by simp only; omega, by simp only; omega⟩, by simp only; omega, by simp only; omega⟩

/-- The whole port area, with the cursor at its origin (R13, R58, R68). -/
theorem portArea_fits (c : PortContext) {w h : Nat} (hw : 64 ≤ w) (hh : 64 ≤ h)
    (window : c.window = portArea c.orientation w h) (cursor : c.cursor = some (0, 0)) : c.Fits w h := by
  obtain ⟨h1, h2⟩ := portArea_pos c.orientation hw hh
  refine ⟨by rw [window]; simp only [portArea]; exact ⟨⟨by simp, by simp⟩, by simp only; omega, by simp only; omega⟩,
    fun x hx => ?_⟩
  rw [cursor] at hx
  cases hx
  rw [window, Rect.has_iff]
  simp [portArea]

theorem PortContext.initial_fits {w h : Nat} (hw : 64 ≤ w) (hh : 64 ≤ h) : (PortContext.initial w h).Fits w h :=
  portArea_fits _ hw hh rfl rfl

/-- A window of the port area with the cursor at its origin (R57, R62). -/
theorem PortContext.fits_origin {c : PortContext} {w h : Nat}
    (hw : c.window.Fits (portWidth c.orientation w h) (portHeight c.orientation w h))
    (hc : c.cursor = some c.window.origin) : c.Fits w h :=
  ⟨hw, fun x hx => by
    rw [hc] at hx
    cases hx
    exact Rect.has_origin hw.order⟩

/-! ## What commands ask and leave -/

/-- What SET_GEOMETRY asks of the part (R67). -/
theorem State.geometryFree_spec {s : State} {p : Port} (h : s.geometryFree p = true) :
    (∀ l, (s.lane l).state = .free) ∧ s.queue = [] ∧ (∀ q, (s.port q).stream = []) ∧ ∀ z, s.zone z = none := by
  simp only [State.geometryFree, Bool.and_eq_true, List.isEmpty_iff] at h
  obtain ⟨⟨⟨⟨⟨hfree, hqueue⟩, ha⟩, hb⟩, hzone⟩, -⟩ := h
  exact ⟨(s.allFree_iff).1 hfree, hqueue, fun q => by cases q <;> assumption, (s.noZone_iff).1 hzone⟩

/-- What is ended leaves the geometry and the table (R180). -/
theorem State.endOwned_same (s : State) (mine : Port → Bool) (q : List Request) :
    (s.endOwned mine q).width = s.width ∧ (s.endOwned mine q).height = s.height ∧
      (s.endOwned mine q).table = s.table := by
  have hl := LaneOnly.endLanes s mine
  obtain ⟨v, e, -⟩ := s.endOwned_eq mine q
  rw [e]
  simp only [State.withZones_width, State.withZones_height, State.withZones_table, State.withQueue_width,
    State.withQueue_height, State.withQueue_table]
  exact ⟨hl.width, hl.height, hl.table⟩

namespace Placed

variable {s : State}

/-! ## Contexts and pixels -/

theorem setResult (h : Placed s) (p : Port) (r : Result) : Placed (s.setResult p r) := h.ofLink (.setResult s p r)

theorem mapContext (h : Placed s) (p : Port) (f : PortContext → PortContext)
    (hc : s.power.geometrySweep = false → (f (s.port p).ctx).Fits s.width s.height) : Placed (s.mapContext p f) :=
  h.setContext p _ rfl hc

theorem context (h : Placed s) (hg : s.power.geometrySweep = false) (p : Port) : (s.port p).ctx.Fits s.width s.height :=
  h.geometry.contexts hg p

theorem setWindow (h : Placed s) (p : Port) (req : List Byte) : Placed (effectSetWindow p req s) := by
  unfold effectSetWindow
  simp only
  split
  · rename_i ho
    refine Placed.setResult (Placed.mapContext h p _ fun _ => ?_) p _
    exact PortContext.fits_origin (clampToArea_fits _ h.geometry.width.1 h.geometry.height.1 ho) rfl
  · exact h.setResult p _

theorem setFormat (h : Placed s) (p : Port) (req : List Byte) : Placed (effectSetFormat p req s) := by
  unfold effectSetFormat
  split
  · refine Placed.setResult (Placed.mapContext h p _ fun hg => ?_) p _
    exact ⟨(h.context hg p).window, (h.context hg p).cursor⟩
  · exact h.setResult p _

theorem setOrientation (h : Placed s) (p : Port) (req : List Byte) : Placed (effectSetOrientation p req s) := by
  unfold effectSetOrientation
  split
  · refine Placed.setResult (Placed.mapContext h p _ fun _ => ?_) p _
    exact portArea_fits _ h.geometry.width.1 h.geometry.height.1 rfl rfl
  · exact h.setResult p _

theorem fillWindow (h : Placed s) (hg : s.power.geometrySweep = false) (p : Port) (req : List Byte) :
    Placed (effectFillWindow p req s) := by
  unfold effectFillWindow
  split
  · split
    · have hr := rectToPanel_fits (s.port p).ctx (h.context hg p).window
      exact Placed.setResult (h.pushEntry p (.fill _ _ _) rfl ⟨hr, Rect.has_origin hr.order⟩) p _
    · exact h.setResult p _
  · exact h.setResult p _

/-- A pixel is placed at the cursor, or ignored past the window's end (R62). -/
theorem placePixel (h : Placed s) (hg : s.power.geometrySweep = false) (p : Port) (v : Level) :
    Placed (State.placePixel p s v) := by
  unfold State.placePixel
  split
  · rename_i x hx
    have hc := h.context hg p
    have hin := (Rect.has_iff _ _).1 (hc.cursor x hx)
    have hpos := toPanel_lt (s.port p).ctx (w := s.width) (h := s.height) (x := x)
      (Nat.lt_of_le_of_lt hin.1.2 hc.window.inside.1) (Nat.lt_of_le_of_lt hin.2.2 hc.window.inside.2)
    have hpush := h.pushEntry p (.pixel (s.panelPos p x) v) rfl hpos
    have hctx : ((s.pushEntry p (.pixel (s.panelPos p x) v)).port p).ctx = (s.port p).ctx := by simp [State.pushEntry]
    refine hpush.setContext p _ rfl fun _ => ?_
    have hw : (s.pushEntry p (.pixel (s.panelPos p x) v)).width = s.width ∧
        (s.pushEntry p (.pixel (s.panelPos p x) v)).height = s.height := by simp [State.pushEntry]
    rw [hw.1, hw.2]
    simp only [hctx]
    exact ⟨hc.window, fun y hy => Rect.nextPos_has hy (hc.cursor x hx)⟩
  · exact h.ofLink (.ignorePixel s p)

/-! ## Requests and zones -/

/-- The request of a SUBMIT_UPDATE whose parameters are good is in order (R71). -/
theorem parseSubmit_ordered {p : Port} {req : List Byte} {q : Request} (h : parseSubmit p req = some q) :
    q.rect.ordered = true := by
  unfold parseSubmit at h
  split at h
  · split at h
    · simp only at h
      split at h
      · exact absurd h (by simp)
      · rename_i hc
        cases h
        simp only [not_or, Bool.not_eq_false] at hc
        exact hc.2.2
    · exact absurd h (by simp)
  · exact absurd h (by simp)

theorem submitUpdate (h : Placed s) (p : Port) (req : List Byte) : Placed (effectSubmitUpdate p req s) := by
  unfold effectSubmitUpdate
  split
  · exact h.setResult p _
  · rename_i q hq
    split
    · exact h.setResult p _
    · split
      · exact h.setResult p _
      · rename_i ht
        split
        · exact h.setResult p _
        · have hfit := rectToPanel_fits (s.port p).ctx
            (clampToArea_fits (s.port p).ctx h.geometry.width.1 h.geometry.height.1 (parseSubmit_ordered hq))
          exact Placed.setResult (h.pushSubmit p { q with
            rect := rectToPanel (s.port p).ctx s.width s.height (clampToArea (s.port p).ctx s.width s.height q.rect) }
            hfit (by simpa using ht)) p _

theorem withdraw (h : Placed s) (hs : ∀ l, s.survey.map Survey.lane = some l ↔ (s.lane l).state = .survey) (p : Port)
    (req : List Byte) : Placed (effectWithdraw p req s) := by
  unfold effectWithdraw
  simp only
  split
  · exact h.setResult p _
  · split
    · have hm : Placed (s.mapPort p fun x => { x with
          stream := x.stream.eraseP (Entry.hasTag (req.head?.getD 0).toNat) }) :=
        h.setPort p _ ((List.eraseP_sublist).filterMap _)
          (fun e he => h.geometry.entries p e (List.eraseP_sublist.subset he)) fun hg => h.context hg p
      exact (hm.ofLink (.appendDone _ p _)).setResult p _
    · split
      · have hq := h.withQueue _ (List.eraseP_sublist (p := fun q : Request =>
          decide (q.port = p) && decide (q.tag = (req.head?.getD 0).toNat)) (l := s.queue))
        exact (hq.ofLink (.appendDone _ p _)).reconsider.setResult p _
      · split
        · exact h.withdrawLane hs p _
        · exact h.setResult p _

theorem reserveZone (h : Placed s) (p : Port) (req : List Byte) : Placed (effectReserveZone p req s) := by
  unfold effectReserveZone
  simp only
  split
  · exact h.setResult p _
  · split
    · exact h.setResult p _
    · rename_i ho
      split
      · exact h.setResult p _
      · exact (h.setZone _ _ (rectToPanel_fits (s.port p).ctx (clampToArea_fits (s.port p).ctx h.geometry.width.1
          h.geometry.height.1 (by simpa using ho)))).setResult p _

theorem releaseZone (h : Placed s) (p : Port) (req : List Byte) : Placed (effectReleaseZone p req s) := by
  unfold effectReleaseZone
  split
  · exact h.setResult p _
  · split
    · exact h.setResult p _
    · split
      · exact (h.freeZone _).reconsider.setResult p _
      · exact h.setResult p _

/-! ## The table -/

theorem tableBegin (h : Placed s) (p : Port) (req : List Byte) : Placed (effectTableBegin p req s) := by
  have start {t : State} (ht : Placed t) (hf : ∀ l, (t.lane l).state = .free) : Placed ((t.withTable
      { phase := .loading p false, memory := [], received := 0, table := none }).setResult p .ok) :=
    (ht.withTable _ hf (by simp)).setResult p _
  unfold effectTableBegin
  simp only
  split
  · exact h.setResult p _
  · rename_i hfree
    have hf := (s.allFree_iff).1 (by simpa using hfree)
    split
    · split
      · exact start h hf
      · exact h.setResult p _
    · have hr := LinkOnly.raiseBoth (s.withTemp { s.temp with band := none }) .tableChanged
      exact start ((h.withTemp _).ofLink hr) fun l => by rw [hr.lane]; exact hf l
    · exact start h hf

theorem tableData (h : Placed s) (p : Port) (req : List Byte) : Placed (effectTableData p req s) := by
  unfold effectTableData
  split
  · rename_i hp
    have hv : s.table.phase ≠ .valid := by simp [hp]
    split
    · split
      · exact (h.withPhase _ (by rfl) hv).setResult p _
      · exact (h.withPhase _ (by rfl) hv).setResult p _
    · exact h.setResult p _
  · exact h.setResult p _

theorem tableEnd (h : Placed s) (p : Port) (req : List Byte) : Placed (effectTableEnd p req s) := by
  unfold effectTableEnd
  split
  · rename_i hp
    split
    · exact (h.withPhase _ (by rfl) (by simp [hp])).setResult p _
    · exact h.setResult p _
  · exact h.setResult p _

theorem tableAbort (h : Placed s) (p : Port) (req : List Byte) : Placed (effectTableAbort p req s) := by
  unfold effectTableAbort
  split
  · rename_i hp
    have ha : Placed s.abortLoad := h.withPhase _ (by rfl) (by simp [hp])
    refine Placed.setResult ?_ p _
    split
    · exact ha.setResult _ _
    · exact ha
  · exact h.setResult p _

/-- A load of an owner that is reset ends ABORTED (R38). -/
theorem abort (h : Placed s) (mine : Port → Bool) : Placed (s.withTable (s.table.aborted mine)) := by
  unfold TableUnit.aborted
  split
  · rename_i hp
    split
    · exact h.withPhase _ (by rfl) (by simp [hp])
    · exact h
  · exact h

/-! ## Settings, geometry and resets -/

theorem setFrameMark (h : Placed s) (p : Port) (req : List Byte) : Placed (effectSetFrameMark p req s) := by
  have hh := h.geometry.height.1
  unfold effectSetFrameMark
  simp only
  refine Placed.setResult (h.withScan _ ?_) p _
  split
  · refine ⟨h.geometry.mark.1, fun r hr => ?_⟩
    cases hr
    omega
  · refine ⟨?_, by simp⟩
    simp only
    omega

/-- The geometry changes with every lane at rest, nothing queued or in a stream, and no zone active (R67). -/
theorem regeometry (h : Placed s) (rest : ∀ l, s.lane l = Lane.rest) (queue : s.queue = [])
    (stream : ∀ p, (s.port p).stream = []) (zone : ∀ z, s.zone z = none) {w k : Nat} (hw : 64 ≤ w ∧ w ≤ 2048)
    (hk : 64 ≤ k ∧ k ≤ 1600) (v : PowerUnit) (hv : v.geometrySweep = true) (c : Scanner) (hc : c.markRow < k)
    (hp : c.pendingMark = none) : Placed (((s.withGeometry w k).withPower v).withScan c) where
  stores := h.stores.congr rfl rfl
  engines := ⟨h.engines.surveying, h.engines.retiring, h.engines.pending, h.engines.listed⟩
  claims := h.claims.goOn (.of_same h.engines rfl rfl (fun _ => rfl) rfl rfl rfl rfl)
  tags := h.tags.of_sublist (fun p => by simp [State.streamRequests]) (.refl _) (fun p => .refl _)
  geometry := by
    refine ⟨hw, hk, fun hs => absurd (hv.symm.trans hs) (by simp), fun p e he => ?_, fun q hq => ?_, fun z u hu => ?_,
      fun l => ?_, hc, fun r hr => ?_⟩
    · simp only [State.withScan_port, State.withPower_port, State.withGeometry_port, stream p] at he
      exact absurd he (by simp)
    · exact absurd (queue ▸ hq : q ∈ []) (by simp)
    · exact absurd ((zone z).symm.trans hu) (by simp)
    · rw [State.withScan_lane, State.withPower_lane, State.withGeometry_lane, rest l]
      exact ⟨by decide, by simp [Lane.rest]; omega⟩
    · rw [show (((s.withGeometry w k).withPower v).withScan c).scan.pendingMark = none from hp] at hr
      exact absurd hr (by simp)

/-- SET_GEOMETRY (R67). -/
theorem setGeometry (h : Placed s) (hl : LanesSound s) (p : Port) (req : List Byte) :
    Placed (effectSetGeometry p req s) := by
  unfold effectSetGeometry
  simp only
  split
  · exact h.setResult p _
  · rename_i hrange
    simp only [Config.minWidth, Config.maxWidth, Config.minHeight, Config.maxHeight, not_or, not_lt] at hrange
    obtain ⟨hw0, hw1, hh0, hh1⟩ := hrange
    split
    · exact h.setResult p _
    · rename_i hfree
      obtain ⟨hlanes, hqueue, hstream, hzone⟩ := State.geometryFree_spec (by simpa using hfree)
      refine Placed.setResult (h.regeometry (fun l => hl.rest l (hlanes l)) hqueue hstream hzone ⟨hw0, hw1⟩ ⟨hh0, hh1⟩ _
        rfl _ ?_ rfl) p _
      simp only
      omega

theorem endOwned (h : Placed s) (hl : LanesSound s) (mine : Port → Bool) (q : List Request)
    (hq : q.Sublist s.queue) : Placed (s.endOwned mine q) := by
  obtain ⟨v, e, hz⟩ := s.endOwned_eq mine q
  have hlanes := (h.endLanes hl mine).withQueue q (by rw [s.endLanes_queue hl]; exact hq)
  have hl1 := LaneOnly.endLanes s mine
  rw [e] at hz ⊢
  refine hlanes.withZones v fun k w hw => ?_
  rw [hz k] at hw
  rw [State.withQueue_zone, hl1.zone]
  split at hw
  · exact absurd hw (by simp)
  · exact hw

/-- A port returns to its starting point (R69, R179, R180). -/
theorem cleared (h : Placed s) (p : Port) {w k : Nat} (hw : w = s.width) (hk : k = s.height) :
    Placed (s.mapPort p fun q => q.cleared w k) :=
  h.setPort p _ (by simp [PortState.cleared]) (by simp [PortState.cleared]) fun _ => by
    rw [hw, hk]
    exact PortContext.initial_fits h.geometry.width.1 h.geometry.height.1

theorem portReset (h : Placed s) (hl : LanesSound s) (p : Port) (req : List Byte) :
    Placed (effectPortReset p req s) := by
  have hqueue := s.endLanes_queue hl fun q => decide (q = p)
  rw [effectPortReset_eq, hqueue]
  have he := h.endOwned hl (fun q => decide (q = p)) _ (List.filter_sublist (p := fun q => !decide (q.port = p)))
  obtain ⟨hw, hk, ht⟩ := s.endOwned_same (fun q => decide (q = p)) (s.queue.filter fun q => !decide (q.port = p))
  have ha := he.abort fun q => decide (q = p)
  rw [ht] at ha
  exact (ha.cleared p (by rw [State.withTable_width, hw]) (by rw [State.withTable_height, hk])).reconsider

/-- The frame-mark row returns to 0, pending or in force (R147, R180). -/
theorem resetScan (h : Placed s) : Placed (s.withScan s.scan.partReset) := by
  have hh := h.geometry.height.1
  have hm := h.geometry.mark.1
  refine h.withScan _ ?_
  unfold Scanner.partReset
  split
  · refine ⟨hm, fun r hr => ?_⟩
    cases hr
    omega
  · refine ⟨?_, by simp⟩
    simp only
    omega

theorem resetSettings (h : Placed s) : Placed s.resetSettings := by
  rw [State.resetSettings_eq]
  exact (h.abort fun _ => true).resetScan.ofBody rfl (.refl _) rfl fun _ _ hz => hz

theorem partReset (h : Placed s) (hl : LanesSound s) (p : Port) (req : List Byte) :
    Placed (effectPartReset p req s) := by
  rw [effectPartReset_eq]
  obtain ⟨hw, hk, -⟩ := s.endOwned_same (fun _ => true) []
  have he := (h.endOwned hl (fun _ => true) [] (List.nil_sublist _)).resetSettings
  have hsize : (s.endOwned (fun _ => true) []).resetSettings.width = s.width ∧
      (s.endOwned (fun _ => true) []).resetSettings.height = s.height := by
    rw [State.resetSettings_eq]
    dsimp only
    exact ⟨hw, hk⟩
  have hports := (he.cleared .a hsize.1.symm hsize.2.symm).cleared .b (w := s.width) (k := s.height)
    (by simp [hsize.1]) (by simp [hsize.2])
  have hab : Placed ((((s.endOwned (fun _ => true) []).resetSettings.mapPorts fun q =>
      q.cleared s.width s.height)).mapPort (otherPort p) fun q => { q with txn := q.txn.abandoned }) :=
    hports.ofLink (.mapPort _ (otherPort p) _ rfl rfl)
  exact (hab.ofLink (.raiseBoth _ .partReset)).reconsider

/-! ## Every effect -/

/-- Every effect of a command, made while no geometry sweep runs, keeps places and claims sound. -/
theorem effect (h : Placed s) (hl : LanesSound s) (hg : s.power.geometrySweep = false) (i : Instr) :
    Placed (effectOf i s) := by
  have answer (p : Port) (data : List Byte) (own : PortState → PortState) (h1 : (own (s.port p)).stream = (s.port p).stream)
      (h2 : (own (s.port p)).ctx = (s.port p).ctx) : Placed (s.answer p data own) := h.ofLink (.answer s p data own h1 h2)
  cases i with
  | setWindow p r => exact h.setWindow p r
  | setFormat p r => exact h.setFormat p r
  | setOrientation p r => exact h.setOrientation p r
  | fillWindow p r => exact h.fillWindow hg p r
  | submitUpdate p r => exact h.submitUpdate p r
  | withdraw p r => exact h.withdraw hl.surveyed p r
  | reserveZone p r => exact h.reserveZone p r
  | releaseZone p r => exact h.releaseZone p r
  | reportTemperature p r => exact (h.withTemp _).setResult p _
  | tableBegin p r => exact h.tableBegin p r
  | tableData p r => exact h.tableData p r
  | tableEnd p r => exact h.tableEnd p r
  | tableAbort p r => exact h.tableAbort p r
  | getTableInfo p r => exact answer p _ id rfl rfl
  | setGeometry p r => exact h.setGeometry hl p r
  | setLimits p r => exact ((h.withLimits _ _).withTemp _).setResult p _
  | setTimers p r =>
    exact Placed.setResult (.withZoneDuration (.withTemp (.withPower (h.withSupply _) _ (by rfl)) _) _) p _
  | setFrameMark p r => exact h.setFrameMark p r
  | setEventEnable p r =>
    simp only [effectOf, effectSetEventEnable]
    split
    · exact Placed.setResult (h.ofLink (.mapPort s p _ (by rfl) (by rfl))) p _
    · exact h.setResult p _
  | getEvents p r => exact answer p _ _ rfl rfl
  | getDone p r =>
    simp only [effectOf, effectGetDone]
    split
    · exact answer p _ _ rfl rfl
    · exact answer p _ _ rfl rfl
  | getResult p r => exact answer p _ id rfl rfl
  | getStatus p r => exact answer p _ id rfl rfl
  | getScan p r => exact answer p _ id rfl rfl
  | getId p r => exact answer p _ id rfl rfl
  | getPixel p r =>
    simp only [effectOf, effectGetPixel]
    split
    · exact answer p _ id rfl rfl
    · exact Placed.setResult (h.ofLink (.mapPort s p _ (by rfl) (by rfl))) p _
  | sleep p r => exact Placed.setResult (h.ofLink (.mapPort s p (fun q => { q with consent := true }) rfl rfl)) p .ok
  | portReset p r => exact h.portReset hl p r
  | partReset p r => exact h.partReset hl p r
  | _ => exact h

end Placed

end Sys2Proof.Machine
end

section
/-! The end of a geometry sweep (R68): the part is idle then, and stays so through the commands that were held, so that
each of them finds sound lanes; places and claims stay sound through them all.
-/

namespace Sys2Proof.Machine

/-! ## The part while it is idle -/

/-- Nothing is queued, surveyed, armed, driven or retired, and every lane is at rest (R13, R67). -/
structure Idle (s : State) : Prop where
  rest : ∀ l, s.lane l = Lane.rest
  queue : s.queue = []
  surveyList : s.surveyList = []
  survey : s.survey = none
  armingList : s.armingList = []
  retireList : s.retireList = []
  retire : s.retire = none
  scanning : s.scan.scanning = false
  pendingMark : s.scan.pendingMark = none

namespace Idle

variable {s t : State}

/-- The lanes of an idle part are sound. -/
theorem lanes (h : Idle s) : LanesSound s := by
  have free (l : LaneId) : (s.lane l).state = .free := by rw [h.rest]; rfl
  have not (l : LaneId) {st : LaneState} (hs : (s.lane l).state = st) (hne : st ≠ .free) : False :=
    hne (hs.symm.trans (free l))
  exact {
    pending := fun l => by simp [h.surveyList, free]
    surveyed := fun l => by simp [h.survey, free]
    armed := fun l => by simp [h.armingList, free]
    retiring := fun l => by simp [h.retireList, free]
    once := by simp [h.surveyList, h.armingList, h.retireList]
    walked := by simp [h.retire, h.retireList]
    rest := fun l _ => h.rest l
    scanning := by simp [h.scanning, free]
    scanBand := fun l hs => (not l hs (by decide)).elim
    unstarted := fun l _ _ => by rw [h.rest]; rfl
    armedCount := fun l hs => (not l hs (by decide)).elim
    runningIndex := fun l hs => (not l hs (by decide)).elim
    retiredIndex := fun l hs => (not l hs (by decide)).elim
    retiredKind := fun l hs => (not l hs (by decide)).elim
    idleMark := fun _ => h.pendingMark
    rails := fun hs => absurd (hs.symm.trans h.scanning) (by simp)
    demand := fun hs => absurd h.armingList hs
    halted := fun _ l => .inl (free l) }

/-- Where every lane is FREE and nothing is queued, a part with sound lanes is idle. -/
theorem ofFree (h : LanesSound s) (free : ∀ l, (s.lane l).state = .free) (queue : s.queue = []) : Idle s := by
  have none_of {ls : List LaneId} {st : LaneState} (hne : st ≠ .free) (hl : ∀ l, l ∈ ls ↔ (s.lane l).state = st) :
      ls = [] := List.eq_nil_iff_forall_not_mem.2 fun l hm => hne (((hl l).1 hm).symm.trans (free l))
  have retireList := none_of (by decide) h.retiring
  have scanning : s.scan.scanning = false := by
    rw [← Bool.not_eq_true, h.scanning]
    rintro ⟨l, hl⟩
    exact absurd (hl.symm.trans (free l)) (by decide)
  refine ⟨fun l => h.rest l (free l), queue, none_of (by decide) h.pending, ?_, none_of (by decide) h.armed, retireList, ?_,
    scanning, h.idleMark scanning⟩
  · cases hs : s.survey with
    | none => rfl
    | some w => exact absurd (((h.surveyed w.lane).1 (by rw [hs]; rfl)).symm.trans (free _)) (by decide)
  · have hw := h.walked
    rw [retireList] at hw
    exact Option.map_eq_none_iff.1 hw

theorem congr (h : Idle s) (lanes : ∀ l, t.lane l = s.lane l) (queue : t.queue = s.queue)
    (surveyList : t.surveyList = s.surveyList) (survey : t.survey = s.survey) (armingList : t.armingList = s.armingList)
    (retireList : t.retireList = s.retireList) (retire : t.retire = s.retire) (scanning : t.scan.scanning = false)
    (pendingMark : t.scan.pendingMark = none) : Idle t :=
  ⟨fun l => (lanes l).trans (h.rest l), queue.trans h.queue, surveyList.trans h.surveyList, survey.trans h.survey,
    armingList.trans h.armingList, retireList.trans h.retireList, retire.trans h.retire, scanning, pendingMark⟩

theorem ofLink (h : Idle s) (l : LinkOnly s t) : Idle t :=
  h.congr l.lane l.queue l.surveyList l.survey l.armingList l.retireList l.retire (by rw [l.scan]; exact h.scanning)
    (by rw [l.scan]; exact h.pendingMark)

/-- A change of what is not a lane, a list, an engine, the queue or the scan. -/
theorem ofBody (h : Idle s) (body : t = { s with
    width := t.width, height := t.height, image := t.image, pixels := t.pixels, portA := t.portA, portB := t.portB
    lastGrant := t.lastGrant, table := t.table, temp := t.temp, zones := t.zones, zoneDuration := t.zoneDuration
    residueLimit := t.residueLimit, wearLimit := t.wearLimit, supply := t.supply, power := t.power
    pending := t.pending }) : Idle t := by
  have scan : t.scan = s.scan := by rw [body]
  exact h.congr (fun l => by rw [body]; rfl) (by rw [body]) (by rw [body]) (by rw [body]) (by rw [body]) (by rw [body])
    (by rw [body]) (by rw [scan]; exact h.scanning) (by rw [scan]; exact h.pendingMark)

theorem setPort (h : Idle s) (p : Port) (v : PortState) : Idle (s.setPort p v) := by
  cases p <;> exact h.ofBody rfl

theorem setResult (h : Idle s) (p : Port) (r : Result) : Idle (s.setResult p r) := h.ofLink (.setResult s p r)

theorem withScan (h : Idle s) (c : Scanner) (scanning : c.scanning = false) (pendingMark : c.pendingMark = none) :
    Idle (s.withScan c) := h.congr (fun _ => rfl) rfl rfl rfl rfl rfl rfl scanning pendingMark

theorem withTable (h : Idle s) (v : TableUnit) : Idle (s.withTable v) := h.ofBody rfl
theorem withTemp (h : Idle s) (v : TempUnit) : Idle (s.withTemp v) := h.ofBody rfl
theorem setZone (h : Idle s) (z : Fin 4) (v : Option Zone) : Idle (s.setZone z v) := h.ofBody rfl

theorem reconsider (h : Idle s) : Idle s.reconsider := by
  rw [State.reconsider_empty s h.queue]; exact h

/-- A withdrawal finds no request in the queue or in a lane (R84). -/
theorem withdraw (h : Idle s) (p : Port) (req : List Byte) : Idle (effectWithdraw p req s) := by
  have lane (tag : Nat) : s.laneOfTag p tag = none := by
    rw [State.laneOfTag, List.find?_eq_none]
    intro l _
    simp [h.rest l, Lane.rest]
  unfold effectWithdraw
  simp only
  split
  · exact h.setResult p _
  · split
    · exact ((h.setPort p _).ofLink (.appendDone _ p _)).setResult p _
    · simp only [h.queue, List.find?_nil, lane]
      exact h.setResult p _

/-- A reset finds no lane to end (R127). -/
theorem endOwned (h : Idle s) (mine : Port → Bool) (q : List Request) (hq : q = []) : Idle (s.endOwned mine q) := by
  obtain ⟨v, r, z, e, hv, -, hr, -⟩ := s.endOwned_whole h.lanes mine q
  have released : s.releasedBy mine = [] := List.eq_nil_iff_forall_not_mem.2 fun l hl => by
    have hst := ((s.mem_releasedBy mine l).1 hl).2
    rw [h.rest l] at hst
    rcases hst with hst | hst <;> exact absurd hst (by decide)
  rw [e]
  refine ⟨fun l => (hv l).trans ?_, hq, ?_, ?_, ?_, ?_, ?_, h.scanning, h.pendingMark⟩
  · rw [h.rest l]
    split <;> rfl
  · simp only [h.surveyList, List.filter_nil]
  · simp [h.survey]
  · simp only [h.armingList, List.filter_nil]
  · simp only [h.retireList, released, List.append_nil]
  · simpa [released] using hr h.retire

theorem portReset (h : Idle s) (p : Port) (req : List Byte) : Idle (effectPortReset p req s) := by
  rw [effectPortReset_eq]
  exact (((h.endOwned _ _ (by rw [s.endLanes_queue h.lanes, h.queue]; rfl)).withTable _).setPort p _).reconsider

theorem resetSettings (h : Idle s) : Idle s.resetSettings := by
  have scan : s.scan.partReset = { s.scan with markRow := 0, pendingMark := none } := by
    simp [Scanner.partReset, h.scanning]
  rw [State.resetSettings_eq, scan]
  exact h.congr (fun _ => rfl) rfl rfl rfl rfl rfl rfl h.scanning rfl

theorem partReset (h : Idle s) (p : Port) (req : List Byte) : Idle (effectPartReset p req s) := by
  rw [effectPartReset_eq]
  have hs := (h.endOwned (fun _ => true) [] rfl).resetSettings
  exact (((((hs.setPort .a _).setPort .b _)).setPort (otherPort p) _).ofLink (.raiseBoth _ .partReset)).reconsider

/-- No effect of a command ends the idleness of lanes, queue and scan. -/
theorem effect (h : Idle s) (i : Instr) : Idle (effectOf i s) := by
  have answer (p : Port) (data : List Byte) (own : PortState → PortState) : Idle (s.answer p data own) :=
    ((h.setPort p _).setResult p _).setPort p _
  cases i with
  | setWindow p r =>
    simp only [effectOf, effectSetWindow]
    split
    · exact (h.setPort p _).setResult p _
    · exact h.setResult p _
  | setFormat p r =>
    simp only [effectOf, effectSetFormat]
    split
    · exact (h.setPort p _).setResult p _
    · exact h.setResult p _
  | setOrientation p r =>
    simp only [effectOf, effectSetOrientation]
    split
    · exact (h.setPort p _).setResult p _
    · exact h.setResult p _
  | fillWindow p r =>
    simp only [effectOf, effectFillWindow]
    split
    · split
      · exact (h.setPort p _).setResult p _
      · exact h.setResult p _
    · exact h.setResult p _
  | submitUpdate p r =>
    simp only [effectOf, effectSubmitUpdate]
    split
    · exact h.setResult p _
    · split
      · exact h.setResult p _
      · split
        · exact h.setResult p _
        · split
          · exact h.setResult p _
          · exact (h.setPort p _).setResult p _
  | withdraw p r => exact h.withdraw p r
  | reserveZone p r =>
    simp only [effectOf, effectReserveZone]
    split
    · exact h.setResult p _
    · split
      · exact h.setResult p _
      · split
        · exact h.setResult p _
        · exact (h.setZone _ _).setResult p _
  | releaseZone p r =>
    simp only [effectOf, effectReleaseZone]
    split
    · exact h.setResult p _
    · split
      · exact h.setResult p _
      · split
        · exact (h.setZone _ _).reconsider.setResult p _
        · exact h.setResult p _
  | reportTemperature p r => exact (h.withTemp _).setResult p _
  | tableBegin p r =>
    simp only [effectOf, effectTableBegin]
    split
    · exact h.setResult p _
    · split
      · split
        · exact (h.withTable _).setResult p _
        · exact h.setResult p _
      · exact (((h.withTemp _).ofLink (.raiseBoth _ _)).withTable _).setResult p _
      · exact (h.withTable _).setResult p _
  | tableData p r =>
    simp only [effectOf, effectTableData]
    split
    · split
      · split
        · exact (h.withTable _).setResult p _
        · exact (h.withTable _).setResult p _
      · exact h.setResult p _
    · exact h.setResult p _
  | tableEnd p r =>
    simp only [effectOf, effectTableEnd]
    split
    · split
      · exact (h.withTable _).setResult p _
      · exact h.setResult p _
    · exact h.setResult p _
  | tableAbort p r =>
    simp only [effectOf, effectTableAbort]
    split
    · refine Idle.setResult ?_ p _
      split
      · exact Idle.setResult (h.withTable _) _ _
      · exact h.withTable _
    · exact h.setResult p _
  | getTableInfo p r => exact answer p _ id
  | setGeometry p r =>
    simp only [effectOf, effectSetGeometry]
    split
    · exact h.setResult p _
    · split
      · exact h.setResult p _
      · refine Idle.setResult (Idle.withScan ?_ _ ?_ ?_) p _
        · exact h.ofBody rfl
        · exact h.scanning
        · rfl
  | setLimits p r =>
    refine Idle.setResult ?_ p _
    exact h.ofBody rfl
  | setTimers p r =>
    refine Idle.setResult ?_ p _
    exact h.ofBody rfl
  | setFrameMark p r =>
    simp only [effectOf, effectSetFrameMark]
    refine Idle.setResult (Idle.withScan h _ ?_ ?_) p _ <;> simp [h.scanning]
  | setEventEnable p r =>
    simp only [effectOf, effectSetEventEnable]
    split
    · exact (h.setPort p _).setResult p _
    · exact h.setResult p _
  | getEvents p r => exact answer p _ _
  | getDone p r =>
    simp only [effectOf, effectGetDone]
    split
    · exact answer p _ _
    · exact answer p _ _
  | getResult p r => exact answer p _ id
  | getStatus p r => exact answer p _ id
  | getScan p r => exact answer p _ id
  | getId p r => exact answer p _ id
  | getPixel p r =>
    simp only [effectOf, effectGetPixel]
    split
    · exact answer p _ id
    · exact (h.setPort p _).setResult p _
  | sleep p r => exact Idle.setResult (h.setPort p { s.port p with consent := true }) p .ok
  | portReset p r => exact h.portReset p r
  | partReset p r => exact h.partReset p r
  | _ => exact h

end Idle

end Sys2Proof.Machine
end

section
/-! Places and claims through the events of the engines: one lemma per event whose answer is more than one operation, and
the effect of a command at its rise.
-/

namespace Sys2Proof.Machine

/-- Events of the link leave the lanes sound. -/
theorem LanesSound.ofLink {s t : State} (h : LanesSound s) (l : LinkOnly s t) : LanesSound t := by
  have lane := l.lane
  refine ⟨?_, ?_, ?_, ?_, ?_, ?_, ?_, ?_, ?_, ?_, ?_, ?_, ?_, ?_, ?_, ?_, ?_, ?_⟩
  all_goals simp only [lane, l.surveyList, l.survey, l.armingList, l.retireList, l.retire, l.scan, l.supply]
  exacts [h.pending, h.surveyed, h.armed, h.retiring, h.once, h.walked, h.rest, h.scanning, h.scanBand, h.unstarted,
    h.armedCount, h.runningIndex, h.retiredIndex, h.retiredKind, h.idleMark, h.rails, h.demand, h.halted]

/-- READY is high only outside a geometry sweep (R61). -/
theorem State.ready_sweep {s : State} {p : Port} (h : s.ready p = true) : s.power.geometrySweep = false := by
  simp only [State.ready, Bool.and_eq_true, Bool.not_eq_true'] at h
  exact h.1.1.1.2

theorem State.placePixel_power (s : State) (p : Port) (v : Level) : (State.placePixel p s v).power = s.power := by
  unfold State.placePixel
  split
  · simp [State.pushEntry, State.mapContext]
  · simp [State.ignorePixel, State.raise]

/-! ## The promote targets of a table that has passed validation -/

/-- A table that passes validation has passed the test of its promote targets (R33). -/
theorem validateImage_promotes {img : List Byte} {t : Table} (h : validateImage img = .ok t) :
    promotesAllowed t.modes = true := by
  unfold validateImage at h
  split at h
  · cases h
  split at h
  · cases h
  split at h
  · cases h
  split at h
  · cases h
  split at h
  · cases h
  split at h
  · cases h
  rename_i hp
  split at h
  · cases h
  split at h
  · cases h
  simp only at h
  split at h
  · cases h
  split at h
  · cases h
  split at h
  · cases h
  cases h
  simpa using hp

/-- An allowed promote target is a mode that accepts unknown (R33). -/
theorem promotesAllowed_accepts {modes : List ModeRecord} (h : promotesAllowed modes = true) {m : ModeRecord} {x : Nat}
    (hm : m ∈ modes) (hp : m.promote = some x) : ∃ t, modes[x]? = some t ∧ t.acceptsUnknown = true := by
  obtain ⟨i, hi, rfl⟩ := List.getElem_of_mem hm
  have hall := List.all_eq_true.1 h i (List.mem_range.2 hi)
  rw [List.getElem?_eq_getElem hi] at hall
  simp only [promoteAllowed, hp] at hall
  cases ht : modes[x]? with
  | none => simp [ht] at hall
  | some t =>
    simp only [ht, Bool.and_eq_true] at hall
    exact ⟨t, rfl, hall.1.2⟩

namespace Placed

variable {s : State}

/-! ## Sweeps and power-on -/

/-- Both stores are swept while every lane is FREE (R13, R68). -/
theorem swept (h : Placed s) (free : ∀ l, (s.lane l).state = .free) : Placed ((s.withImage []).withPixels []) where
  stores := .swept rfl rfl
  engines := ⟨h.engines.surveying, h.engines.retiring, h.engines.pending, h.engines.listed⟩
  claims := .ofFree free h.claims.holdBusy
    ⟨h.engines.surveying, h.engines.retiring, h.engines.pending, h.engines.listed⟩
    (fun l x _ => (by simp [State.pixel, Store.read, PixelRecord.swept])) h.claims.promoteTargets
  tags := h.tags.of_sublist (fun p => by simp [State.streamRequests]) (.refl _) (fun p => .refl _)
  geometry := by
    have g := h.geometry
    exact ⟨g.width, g.height, fun hs p => by simpa using g.contexts hs p, fun p => by simpa using g.entries p,
      g.requests, g.zones, g.lanes, g.mark⟩

/-- A geometry sweep ends on contexts that fit the new geometry (R68). -/
theorem endSweep (h : Placed s) (v : PowerUnit) (fits : ∀ p, (s.port p).ctx.Fits s.width s.height) :
    Placed (s.withPower v) where
  stores := h.stores.congr rfl rfl
  engines := ⟨h.engines.surveying, h.engines.retiring, h.engines.pending, h.engines.listed⟩
  claims := h.claims.goOn (.of_same h.engines rfl rfl (fun _ => rfl) rfl rfl rfl rfl)
  tags := h.tags.of_sublist (fun p => by simp [State.streamRequests]) (.refl _) (fun p => .refl _)
  geometry := by
    have g := h.geometry
    exact ⟨g.width, g.height, fun _ p => by simpa using fits p, fun p => by simpa using g.entries p,
      g.requests, g.zones, g.lanes, g.mark⟩

/-- The end of a geometry sweep finds every lane FREE and leaves contexts of the whole port area (R68). -/
theorem sweptGeometry (h : Placed s) (free : ∀ l, (s.lane l).state = .free) : Placed s.sweptGeometry := by
  have hw := h.geometry.width.1
  have hh := h.geometry.height.1
  have hfit (c : PortContext) : (c.fitted s.width s.height).Fits s.width s.height :=
    portArea_fits (c.fitted s.width s.height) hw hh rfl rfl
  have h0 := (h.swept free).withLastGrant .survey
  have ha := h0.setContext .a { s.portA with ctx := s.portA.ctx.fitted s.width s.height } rfl fun _ => hfit _
  have hb := ha.setContext .b { s.portB with ctx := s.portB.ctx.fitted s.width s.height } rfl fun _ => hfit _
  refine hb.endSweep { s.power with geometrySweep := false } fun p => ?_
  cases p <;> exact hfit _

/-- The power-on values put nothing on the panel (R161). -/
theorem powerOn (r g : Bool) (ta tb : Transaction) (pend : List Instr) : Placed (State.powerOn r g ta tb pend) := by
  have hr := Sound.placed (show Sound State.reset from resetSound)
  have hl : LinkOnly State.reset (State.powerOn r false ta tb []) :=
    ⟨rfl, fun p => by cases p <;> rfl, fun p => by cases p <;> rfl, rfl⟩
  exact ((hr.ofLink hl).withSupply { State.reset.supply with railGood := g }).withPending pend

/-! ## Commands of the link -/

/-- A command of the link keeps places and claims sound, whatever its transaction comes to. -/
theorem request (h : Placed s) (hl : LanesSound s) {i : Instr} {p : Port} {req : List Byte} {more : Bool} {n : Nat}
    (hr : requestOf i = some (p, req, more, n)) : Answers (exec i s) Placed := by
  refine ⟨_, exec_request hr s, Placed.ofLink ?_ (.settle _)⟩
  rcases s.transact_cases p (if more then .query n else .fixed n) req i (effectOf i) with hk | ⟨-, hg, -, he⟩
  · exact h.ofLink hk
  · have hk := LinkOnly.risen s p (req.length + 1)
    rw [he]
    exact (h.ofLink hk).effect (hl.ofLink hk) (hk.sweep.trans hg) i

/-- The command byte of a pixel write moves the cursor to the window origin (R62). -/
theorem writeCode (h : Placed s) (p : Port) : Answers (execWritePixels p .code s) Placed := by
  refine ⟨_, rfl, ?_⟩
  have ho := h.ofLink (.opened s p)
  have untaken := ho.ofLink (.clockUntaken _ p)
  unfold State.takeCode
  simp only
  split
  · split
    · have hsent := ho.ofLink (.sendResponseByte _ p)
      have hcode : Placed (((s.opened p).sendResponseByte p).mapPort p fun q =>
          { q with txn := .writing false false, ctx := { q.ctx with cursor := some q.ctx.window.origin } }) :=
        hsent.setContext p _ rfl fun hg => PortContext.fits_origin (hsent.context hg p).window rfl
      exact hcode.ofLink (.settle _)
    · exact untaken
  · exact untaken

/-- A pixel data byte places its pixels while READY is high (R62). -/
theorem pixelDataByte (h : Placed s) (p : Port) (b : Byte) : Answers (execPixelDataByte p b s) Placed := by
  unfold execPixelDataByte
  split
  · refine ⟨_, rfl, Placed.ofLink ?_ (.settle _)⟩
    split
    · rename_i hready
      have hg : s.power.geometrySweep = false := State.ready_sweep hready
      have hsent := LinkOnly.sendResponseByte s p
      exact (foldl_keeps (fun t => Placed t ∧ t.power.geometrySweep = false) _
        (fun t v ⟨ht, hs⟩ => ⟨ht.placePixel hs p v, by rw [State.placePixel_power]; exact hs⟩) _ _
        ⟨h.ofLink hsent, hsent.sweep.trans hg⟩).1
    · exact h.ofLink (.discardPixelByte s p)
  · exact ⟨_, rfl, h.ofLink (.clockUntaken s p)⟩

/-- A level of a readback is granted (R66). -/
theorem readbackLevelRead (h : Placed s) (p : Port) : Answers (execReadbackLevelRead p s) Placed := by
  have same : Answers (.next s) Placed := .next h
  unfold execReadbackLevelRead
  split
  · split
    · split
      · exact ⟨_, rfl, Placed.ofLink ((h.withLastGrant _).ofLink (.mapPort _ p _ (by rfl) (by rfl))) (.settle _)⟩
      · exact same
    · exact same
  · exact same

/-! ## Drains -/

/-- The head of a stream goes, or leaves an entry that is no request (R60). -/
theorem dropHead (h : Placed s) (p : Port) {e : Entry} {left rest : List Entry}
    (hd : (s.port p).stream = e :: rest) (hl : left = rest ∨ ∃ k, left = k :: rest ∧ k.request = none ∧
      k.Fits s.width s.height) : Placed (s.mapPort p fun q => { q with stream := left }) := by
  have entries := h.geometry.entries p
  refine h.setPort p _ ?_ (fun k hk => ?_) fun hs => h.geometry.contexts hs p
  · have hsub : (rest.filterMap Entry.request).Sublist (s.streamRequests p) := by
      rw [State.streamRequests, hd]
      exact (List.sublist_cons_self _ rest).filterMap _
    rcases hl with rfl | ⟨k, rfl, hk, -⟩
    · exact hsub
    · rw [List.filterMap_cons_none hk]; exact hsub
  · rw [hd] at entries
    rcases hl with rfl | ⟨j, rfl, -, hf⟩
    · exact entries k (List.mem_cons_of_mem _ hk)
    · rcases List.mem_cons.1 hk with rfl | hk
      · exact hf
      · exact entries k (List.mem_cons_of_mem _ hk)

theorem drainPixelEntry (h : Placed s) (p : Port) : Answers (execDrainPixelEntry p s) Placed := by
  have same : Answers (.next s) Placed := .next h
  unfold execDrainPixelEntry
  split
  · rename_i hd
    split
    · exact ⟨_, rfl, (((h.setLevel _ _).withLastGrant _).dropHead p hd (.inl rfl)).ofLink (.settle _)⟩
    · exact same
  · exact same

theorem drainFillPixel (h : Placed s) (p : Port) : Answers (execDrainFillPixel p s) Placed := by
  have same : Answers (.next s) Placed := .next h
  unfold execDrainFillPixel
  split
  · rename_i r v x rest hd
    split
    · refine ⟨_, rfl, (((h.setLevel x v).withLastGrant _).dropHead p hd ?_).ofLink (.settle _)⟩
      have hfit : (Entry.fill r v x).Fits s.width s.height := h.geometry.entries p _ (by rw [hd]; simp)
      split
      · rename_i y hy
        exact .inr ⟨_, rfl, rfl, hfit.1, Rect.nextPos_has hy hfit.2⟩
      · exact .inl rfl
    · exact same
  · exact same

/-- A request passes to the queue, or ends BAD_MODE (R60, R75). -/
theorem drainSubmitEntry (h : Placed s) (p : Port) (owner : ∀ q, Entry.submit q ∈ (s.port p).stream → q.port = p) :
    Answers (execDrainSubmitEntry p s) Placed := by
  unfold execDrainSubmitEntry
  split
  · rename_i q rest hd
    refine ⟨_, rfl, Placed.ofLink ?_ (.settle _)⟩
    have hq := h.enqueue p q rest hd (owner q (by rw [hd]; simp))
    unfold State.enterQueue
    split
    · exact (h.dropHead p hd (.inl rfl)).ofLink (.appendDone _ _ _)
    · have := hq.reconsider
      simpa using this
  · exact .next h

end Placed

end Sys2Proof.Machine
end

section
/-! Places and claims through every event (R5 to R7, R115, and the places of R52 to R86).
-/

namespace Sys2Proof.Machine

/-! ## What the engines' operations leave -/

theorem State.closeSurvey_claimed (s : State) {w : Survey} (hw : s.survey = some w) :
    (s.closeSurvey.lane w.lane).claimed = (s.lane w.lane).claimed := by
  rw [State.closeSurvey_eq, hw]
  simp only [State.withSurvey_lane, State.setLane_lane, if_true]
  exact (Lane.decided_alike _ _).claimed

theorem State.drive_scan (s : State) (visits : Pos → Bool) : (s.drive visits).scan = s.scan := by
  obtain ⟨lanes, hd, -⟩ := s.drive_eq visits
  rw [hd]; rfl

theorem State.drive_armed (s : State) (visits : Pos → Bool) : (s.drive visits).armingList = s.armingList ∧
    ∀ l, ((s.drive visits).lane l).state = (s.lane l).state := by
  obtain ⟨lanes, hd, hlane⟩ := s.drive_eq visits
  refine ⟨by rw [hd]; rfl, fun l => ?_⟩
  have hl : (s.drive visits).lane l = (s.withLanes lanes).lane l := by rw [hd]; rfl
  rw [hl, hlane]

theorem State.advance_armingList (s : State) : s.advance.armingList = s.armingList := by
  refine foldl_keeps (fun t : State => t.armingList = s.armingList) _ (fun t l ht => ?_) _ _ rfl
  rw [← ht]
  unfold State.advanceLane
  simp only
  split
  · simp [State.joinRetire, State.mapLane]
  · split <;> simp [State.joinRetire, State.mapLane]

/-- The lanes that a boundary admits are still ARMED after the RUNNING ones have advanced (R117). -/
theorem State.admissible_armed (s : State) (h : ∀ l ∈ s.armingList, (s.lane l).state = .armed) (l : LaneId)
    (hl : l ∈ s.advance.admissible) : (s.advance.lane l).state = .armed := by
  have hmem : l ∈ s.advance.armingList := (List.takeWhile_sublist _).subset hl
  rw [State.advance_armingList] at hmem
  rw [State.advance_other s (by rw [h l hmem]; decide)]
  exact h l hmem

namespace Placed

variable {s : State}

/-! ## The table -/

theorem sweepQueue (h : Placed s) : Placed s.sweepQueue :=
  foldl_keeps Placed _ (fun t _ ht => ht.ofLink (.appendDone t _ _)) _ _ (h.withQueue _ List.filter_sublist)

/-- A validation ends while every lane is FREE (R25): the table that passed has promote targets that accept unknown
(R33), or the table unit becomes INVALID. -/
theorem validationEnd (h : Placed s) : Answers (execValidationEnd s) Placed := by
  unfold execValidationEnd
  split
  · rename_i owner hphase
    have hvalid : s.table.phase ≠ .valid := by rw [hphase]; simp
    have free (l : LaneId) : (s.lane l).state = .free := by
      by_contra hl
      exact hvalid (h.claims.tableHeld l hl)
    split
    · rename_i t ht
      refine ⟨_, rfl, Placed.ofLink ?_ (.settle _)⟩
      refine (Placed.sweepQueue (Placed.withTemp ?_ _)).reconsider
      refine Placed.ofLink ?_ ((LinkOnly.setResult _ owner .ok).trans (.raiseBoth _ .tableChanged))
      refine h.withTable _ free fun u m x hu hm hp => ?_
      cases hu
      obtain ⟨k, hk, hacc⟩ := promotesAllowed_accepts (validateImage_promotes ht) hm hp
      simpa [State.modeRecord, hk] using hacc
    · refine ⟨_, rfl, Placed.ofLink ?_ (.settle _)⟩
      exact Placed.setResult (h.withPhase { s.table with phase := .invalid _ } rfl hvalid) owner _
  · exact .next h

/-! ## The Survey Engine -/

theorem surveyStarted (h : Placed s) (hl : LanesSound s) : Answers (execSurveyStart s) Placed := by
  unfold execSurveyStart
  split
  · rename_i l rest hs hlist
    refine ⟨_, rfl, Placed.ofLink ?_ (.settle _)⟩
    exact h.surveyStart (w := {
        lane := l, pos := some (s.lane l).rect.origin, residueLimit := s.residueLimit, wearLimit := s.wearLimit
        mode := s.modeRecord (s.lane l).requestedMode
        promoteMode := (s.modeRecord (s.lane l).requestedMode).promote.map s.modeRecord, read := none })
      hl hs hlist ⟨rfl, rfl, rfl, rfl, rfl, rfl, rfl, fun _ => rfl⟩ rfl rfl rfl
  · exact .next h

theorem surveyVisit (h : Placed s) (part : VisitPart) : Answers (execSurveyVisit part s) Placed := by
  have same : Answers (.next s) Placed := .next h
  have hg := h.withLastGrant .survey
  unfold execSurveyVisit
  split
  · rename_i w hw
    split
    · rename_i x v hx hv
      split
      · exact ⟨_, rfl, (h.finishVisit hw hx v).ofLink (.settle _)⟩
      · exact same
    · rename_i x hx hv
      split
      · split
        · exact ⟨_, rfl, (hg.finishVisit hw hx _).ofLink (.settle _)⟩
        · obtain ⟨hin, hbefore⟩ := h.claims.surveyed w hw
          exact ⟨_, rfl, (hg.moveSurvey hw { w with read := some (s.level x) } rfl rfl hin hbefore).ofLink (.settle _)⟩
      · exact same
    · exact same
  · exact same

theorem surveyEnd (h : Placed s) : Answers (execSurveyEnd s) Placed := by
  have same : Answers (.next s) Placed := .next h
  unfold execSurveyEnd
  split
  · rename_i w hw
    split
    · simp only
      split
      · rename_i hc
        rw [State.closeSurvey_claimed s hw] at hc
        exact ⟨_, rfl, (h.endEmpty hw hc _).reconsider.ofLink (.settle _)⟩
      · split
        · exact ⟨_, rfl, (h.retireSurveyed hw _ _).startRetire.ofLink (.settle _)⟩
        · refine ⟨_, rfl, Placed.ofLink ?_ (.settle _)⟩
          obtain ⟨v, hv⟩ := State.raiseOnDemand_eq ((s.closeSurvey.mapLane w.lane fun r =>
            { r with state := .armed, frameIndex := 0, abort := false }).withArmingList
              ((s.closeSurvey.mapLane w.lane fun r =>
                { r with state := .armed, frameIndex := 0, abort := false }).armingList ++ [w.lane]))
          rw [hv]
          exact ((h.armSurveyed hw).withArmingList _).withSupply v
    · exact same
  · exact same

/-! ## The Frame Scanner -/

theorem scanStart (h : Placed s) (hl : LanesSound s) : Answers (execScanStart s) Placed := by
  have same : Answers (.next s) Placed := .next h
  unfold execScanStart
  split
  · split
    · refine ⟨_, rfl, Placed.ofLink (Placed.withSupply ?_ _) (.settle _)⟩
      refine Placed.beginFrame (h.admitLane _ fun l hm => (hl.armed l).1 (List.mem_of_mem_filter hm)) _ rfl rfl
    · exact same
  · exact same

theorem frameRow (h : Placed s) (n : Nat) : Answers (execFrameRow n s) Placed := by
  unfold execFrameRow
  simp only
  split
  · refine ⟨_, rfl, Placed.ofLink ((h.drive _).sameMark _ ?_ ?_) (.settle _)⟩ <;> rw [State.drive_scan]
  · exact .next h

/-- The lanes advance past the frame, and either none is RUNNING and the scan ends or those that may join are admitted
(R117, R121, R141, R142). -/
theorem advanced (h : Placed s) (armed : ∀ l ∈ s.armingList, (s.lane l).state = .armed) :
    Placed (if (s.advance.lanesIn .running).isEmpty then s.advance.endScan
      else (s.advance.admitLane s.advance.admissible).withScan
        (s.advance.admitLane s.advance.admissible).scan.beginFrame) := by
  split
  · exact h.advance.toIdle.withSupply _
  · exact (h.advance.admitLane _ (s.admissible_armed armed)).beginFrame _ rfl rfl

theorem frameBoundary (h : Placed s) (hl : LanesSound s) : Answers (execFrameBoundary s) Placed := by
  unfold execFrameBoundary
  split
  · have hf : Placed s.finishFrame := by
      refine (h.drive s.unvisited).sameMark _ ?_ ?_ <;> rw [State.drive_scan]
    have armed : ∀ l ∈ s.finishFrame.armingList, (s.finishFrame.lane l).state = .armed := fun l hm => by
      obtain ⟨hlist, hstate⟩ := s.drive_armed s.unvisited
      unfold State.finishFrame at hm ⊢
      rw [State.withScan_armingList, hlist] at hm
      rw [State.withScan_lane, hstate]
      exact (hl.armed l).1 hm
    have hc := (hf.sameMark { s.finishFrame.scan with counter := (s.finishFrame.scan.counter + 1) % 65536 } rfl
      rfl).withSupply { s.finishFrame.supply with recovery := false }
    refine ⟨_, rfl, Placed.ofLink (Placed.startRetire ?_) (.settle _)⟩
    refine hc.advanced fun l hm => ?_
    rw [State.withSupply_armingList, State.withScan_armingList] at hm
    rw [State.withSupply_lane, State.withScan_lane]
    exact armed l hm
  · exact .next h

/-! ## The Retire Engine -/

theorem retireVisited (h : Placed s) : Answers (execRetireVisit s) Placed := by
  have same : Answers (.next s) Placed := .next h
  unfold execRetireVisit
  split
  · rename_i w hw
    split
    · rename_i x hx
      refine ⟨_, rfl, Placed.ofLink ?_ (.settle _)⟩
      exact h.retireVisit hw hx _ rfl (StoresSound.retired_legal _ _ _ _ (h.stores.pixel_legal _))
    · exact same
  · exact same

theorem retireWalkEnd (h : Placed s) : Answers (execRetireWalkEnd s) Placed := by
  have same : Answers (.next s) Placed := .next h
  unfold execRetireWalkEnd
  split
  · rename_i w hw
    split
    · rename_i hx
      exact ⟨_, rfl, (h.endWalk hw hx _).reconsider.startRetire.ofLink (.settle _)⟩
    · exact same
  · exact same

/-! ## The supply and the zones -/

theorem railLost (h : Placed s) (hl : LanesSound s) : Answers (execRailLost s) Placed := by
  refine ⟨_, rfl, Placed.ofLink ?_ (.settle _)⟩
  have hs := h.withSupply { s.supply with railGood := false }
  split
  · exact hs.trip hl.surveyed _
  · exact hs

theorem riseTimeout (h : Placed s) (hl : LanesSound s) : Answers (execRiseTimeout s) Placed := by
  unfold execRiseTimeout
  split
  · exact ⟨_, rfl, (h.trip hl.surveyed _).ofLink (.settle _)⟩
  · exact .next h

theorem zoneLapse (h : Placed s) (z : Fin 4) : Answers (execZoneLapse z s) Placed := by
  unfold execZoneLapse
  split
  · refine ⟨_, rfl, Placed.ofLink (Placed.reconsider ?_) (.settle _)⟩
    exact ((h.ofLink (.leaveDoze s)).freeZone z).ofLink (.raise _ _ _)
  · exact .next h

end Placed

end Sys2Proof.Machine
end

section
/-! The end of a geometry sweep with the transactions that were held, and O60: places and claims through every command.
-/

namespace Sys2Proof.Machine

/-! ## Held transactions -/

theorem EffectFrame.takeHeld (p : Port) (s : State) (x : Held) : EffectFrame s (State.takeHeld p s x) := by
  rw [State.takeHeld_eq]
  cases x with
  | command i => exact effectOf_frame i s
  | writeEnd r => exact setPort s p _ (.inl rfl)
  | untaken => exact setPort s p _ (.inl rfl)

theorem EffectFrame.applyHeld (s : State) (p : Port) : EffectFrame s (s.applyHeld p) := by
  unfold State.applyHeld
  split
  · exact refl s
  · exact foldl_keeps (EffectFrame s) _ (fun _ x h => h.trans (takeHeld p _ x)) _ _ (mapPort s p _ (.inr rfl))

/-- At most the first transaction that a port holds is a command (R168), so it meets the state before the others. -/
theorem State.applyHeld_keeps (P : State → Prop) (p : Port)
    (drop : ∀ s, P s → P (s.mapPort p fun q => { q with held := [] }))
    (command : ∀ s i, P s → s.power.geometrySweep = false → P (effectOf i s))
    (other : ∀ s x, (∀ i, x ≠ Held.command i) → P s → P (State.takeHeld p s x)) (s : State) (h : P s)
    (first : ∀ i, Held.command i ∉ (s.port p).held.tail) : P (s.applyHeld p) := by
  unfold State.applyHeld
  split
  · exact h
  · rename_i hg
    have hd := drop s h
    cases hl : (s.port p).held with
    | nil => exact hd
    | cons x rest =>
      refine List.foldlRecOn rest _ ?_ fun t ht y hy => other t y (fun i hi => ?_) ht
      · cases x with
        | command i => exact command _ i hd (by simpa using hg)
        | writeEnd r => exact other _ _ (by simp) hd
        | untaken => exact other _ _ (by simp) hd
      · rw [hl] at first
        exact first i (hi ▸ hy)

/-- What both ports' held transactions keep, the end of the sweep keeps (R61, R168). -/
theorem State.sweepEnd_keeps (P : State → Prop)
    (drop : ∀ s p, P s → P (s.mapPort p fun q => { q with held := [] }))
    (command : ∀ s i, P s → s.power.geometrySweep = false → P (effectOf i s))
    (other : ∀ s p x, (∀ i, x ≠ Held.command i) → P s → P (State.takeHeld p s x)) {s : State}
    (first : ∀ p i, Held.command i ∉ (s.port p).held.tail) (h : P s.sweptGeometry) :
    P ((s.sweptGeometry.applyHeld .a).applyHeld .b) := by
  refine State.applyHeld_keeps P .b (drop · .b) command (other · .b) _ ?_ fun i hi => ?_
  · exact State.applyHeld_keeps P .a (drop · .a) command (other · .a) _ h (first .a)
  · rcases (EffectFrame.applyHeld s.sweptGeometry .a).held .b with hb | hb <;> rw [hb] at hi
    · exact first .b i hi
    · exact absurd hi (by simp)

/-! ## Every command -/

theorem Placed.geometrySweepEnd {s : State} (h : Sound s) : Answers (execGeometrySweepEnd s) Placed := by
  unfold execGeometrySweepEnd
  split
  · rename_i hg
    obtain ⟨hfree, hqueue, -, -⟩ := h.quiet.sweep (.inr hg)
    rw [State.allFree_iff] at hfree
    have idle : Idle s.sweptGeometry := (Idle.ofFree h.lanes hfree hqueue).ofBody rfl
    refine ⟨_, rfl, Placed.ofLink ?_ (.settle _)⟩
    refine (State.sweepEnd_keeps (fun t => Placed t ∧ Idle t) (fun t p ht => ?_) (fun t i ht hs => ?_)
      (fun t p x hx ht => ?_) h.queues.heldFirst ⟨h.placed.sweptGeometry hfree, idle⟩).1
    · have hl := LinkOnly.mapPort t p (fun q => { q with held := [] }) rfl rfl
      exact ⟨ht.1.ofLink hl, ht.2.ofLink hl⟩
    · exact ⟨ht.1.effect ht.2.lanes hs i, ht.2.effect i⟩
    · have hl := LinkOnly.takeHeld p t x hx
      exact ⟨ht.1.ofLink hl, ht.2.ofLink hl⟩
  · exact .next h.placed

theorem Placed.initSweepEnd {s : State} (h : Sound s) : Answers (execInitSweepEnd s) Placed := by
  unfold execInitSweepEnd
  split
  · rename_i hi
    have hfree := (State.allFree_iff s).1 (h.quiet.sweep (.inl hi.1)).1
    refine ⟨_, rfl, Placed.ofLink ?_ (.settle _)⟩
    exact ((h.placed.swept hfree).withLastGrant .survey).withPower { s.power with state := .run } rfl
  · exact .next h.placed

/-- Every command that a sound state takes leaves places and claims sound. -/
theorem Placed.exec {s : State} (h : Sound s) (i : Instr) : Answers (Machine.exec i s) Placed := by
  have hp := h.placed
  by_cases hl : isLinkEvent i = true
  · exact (exec_linkEvent i s hl).imp fun t => hp.ofLink
  by_cases hs : isSupplyEvent i = true
  · obtain ⟨v, hv⟩ := exec_supplyEvent i s hs
    exact hv.imp fun t => (hp.withSupply v).ofLink
  cases hr : requestOf i with
  | some r => exact hp.request h.lanes (i := i) hr
  | none =>
  cases i with
  | powerOnReset r => exact ⟨_, rfl, .powerOn ..⟩
  | initSweepEnd => exact Placed.initSweepEnd h
  | writePixels p ph =>
    cases ph with
    | rise => exact absurd rfl hl
    | code => exact hp.writeCode p
  | pixelDataByte p b => exact hp.pixelDataByte p b
  | readbackLevelRead p => exact hp.readbackLevelRead p
  | validationEnd => exact hp.validationEnd
  | geometrySweepEnd => exact Placed.geometrySweepEnd h
  | drainPixelEntry p => exact hp.drainPixelEntry p
  | drainFillPixel p => exact hp.drainFillPixel p
  | drainSubmitEntry p => exact hp.drainSubmitEntry p (h.queues.owner p)
  | surveyStart => exact hp.surveyStarted h.lanes
  | surveyVisit part => exact hp.surveyVisit part
  | surveyEnd => exact hp.surveyEnd
  | scanStart => exact hp.scanStart h.lanes
  | frameRow n => exact hp.frameRow n
  | frameBoundary => exact hp.frameBoundary h.lanes
  | retireVisit => exact hp.retireVisited
  | retireWalkEnd => exact hp.retireWalkEnd
  | railLost => exact hp.railLost h.lanes
  | riseTimeout => exact hp.riseTimeout h.lanes
  | zoneLapse z => exact hp.zoneLapse z
  | _ => simp [isLinkEvent, isSupplyEvent, requestOf] at hl hs hr

/-! ## Every step -/

/-- No invariant reads the queue of waiting commands (Log 1). -/
theorem Sound.withPending {s : State} (h : Sound s) (v : List Instr) : Sound (s.withPending v) where
  stores := h.stores.congr rfl rfl
  lanes := by
    obtain ⟨h1, h2, h3, h4, h5, h6, h7, h8, h9, h10, h11, h12, h13, h14, h15, h16, h17, h18⟩ := h.lanes
    exact ⟨h1, h2, h3, h4, h5, h6, h7, h8, h9, h10, h11, h12, h13, h14, h15, h16, h17, h18⟩
  queues := by
    obtain ⟨h1, h2, h3, h4, h5, h6, h7, h8, h9⟩ := h.queues
    exact ⟨h1, h2, h3, h4, h5, h6, h7, h8, h9⟩
  tags := h.tags
  geometry := (h.placed.withPending v).geometry
  quiet := ⟨h.quiet.sweep, h.quiet.init, h.quiet.sleep⟩
  temperature := by
    obtain ⟨h1, h2, h3, h4, h5, h6, h7, h8⟩ := h.temperature
    exact ⟨h1, h2, h3, h4, h5, h6, h7, h8⟩
  claims := (h.placed.withPending v).claims

/-- What holds in every sound state and after every command that one takes, every step from a sound state leaves. -/
theorem Sound.step {Q : State → Prop} (same : ∀ s, Sound s → Q s) (hQ : ∀ s i, Sound s → Answers (Machine.exec i s) Q)
    {s t : State} (h : Sound s) (hs : Machine.step s = .next t) : Q t := by
  unfold Machine.step at hs
  split at hs
  · cases hs
    exact same s h
  · exact (hQ _ _ (h.withPending _)).elim hs

/-- Settles O60: claims are made by a survey alone and released by a retire walk alone, and every move of a lane in
between keeps its rectangle, its counts and its final mode. -/
theorem stepKeepsClaims : Obligations.StepKeepsClaims := fun _ _ h hs =>
  (h.step (fun _ hs => hs.placed) (fun _ i hs => Placed.exec hs i) hs).claims

end Sys2Proof.Machine
end

section
/-! The part at rest (R13, R67, R165): what keeps it in INIT, in SLEEP and through a geometry sweep as these find it, and
that what follows every event enters SLEEP only on its conditions.
-/

namespace Sys2Proof.Machine

/-! ## The part at rest, and awake -/

/-- Every lane is FREE, nothing is queued or in a stream, and no zone is active (R13, R67). -/
def State.Calm (s : State) : Prop :=
  s.allFree = true ∧ s.queue = [] ∧ (∀ p, (s.port p).stream = []) ∧ s.noZone = true

theorem State.Calm.congr {s t : State} (h : s.Calm) (lane : ∀ l, t.lane l = s.lane l) (queue : t.queue = s.queue)
    (stream : ∀ p, (t.port p).stream = (s.port p).stream) (zone : ∀ z, t.zone z = s.zone z) : t.Calm := by
  obtain ⟨hl, hq, hs, hz⟩ := h
  refine ⟨?_, queue.trans hq, fun p => (stream p).trans (hs p), ?_⟩
  · rw [State.allFree_iff] at hl ⊢
    exact fun l => (lane l).symm ▸ hl l
  · rw [State.noZone_iff] at hz ⊢
    exact fun z => (zone z).trans (hz z)

theorem State.Calm.ofLink {s t : State} (h : s.Calm) (l : LinkOnly s t) : t.Calm := h.congr l.lane l.queue l.stream l.zone

/-- The quiet conditions (R162), one by one. -/
theorem State.quiet_iff (s : State) : s.quiet = true ↔ s.supply.state = .off ∧ s.scan.scanning = false ∧
    s.allFree = true ∧ s.queue = [] ∧ (∀ p, (s.port p).stream = []) ∧ (∀ p v, s.table.phase ≠ .loading p v) ∧
    s.power.geometrySweep = false ∧ ∀ p, (s.port p).txn = .closed := by
  have both (P : PortState → Prop) : (∀ p, P (s.port p)) ↔ P (s.port .a) ∧ P (s.port .b) :=
    ⟨fun h => ⟨h .a, h .b⟩, fun h p => (by cases p; exacts [h.1, h.2])⟩
  have ha : s.portA = s.port .a := rfl
  have hb : s.portB = s.port .b := rfl
  rw [both fun q => q.stream = [], both fun q => q.txn = .closed]
  cases hp : s.table.phase <;> simp [State.quiet, State.selectHigh, hp, ha, hb, and_assoc]

/-- The part is in RUN, DOZE or WAKING, and calm while a geometry sweep runs. -/
structure Awake (s : State) : Prop where
  init : s.power.state ≠ .init
  sleep : s.power.state ≠ .sleep
  sweep : s.power.geometrySweep = true → s.Calm

namespace Awake

variable {s t : State}

theorem quiet (h : Awake s) : QuietSound s :=
  ⟨fun hs => h.sweep (hs.resolve_left h.init), fun hi => absurd hi h.init, fun hi => absurd hi h.sleep⟩

theorem congr (h : Awake s) (power : t.power = s.power) (calm : s.Calm → t.Calm) : Awake t :=
  ⟨power ▸ h.init, power ▸ h.sleep, fun hs => calm (h.sweep (power ▸ hs))⟩

theorem ofLink (h : Awake s) (l : LinkOnly s t) (power : t.power = s.power) : Awake t := h.congr power fun hc => hc.ofLink l

/-- Outside a geometry sweep nothing has to be calm. -/
theorem ofPower (h : Awake s) (hg : s.power.geometrySweep = false) (power : t.power = s.power) : Awake t :=
  ⟨power ▸ h.init, power ▸ h.sleep, fun hs => absurd ((power ▸ hs).symm.trans hg) (by simp)⟩

/-- The part passes from one of RUN, DOZE and WAKING to another. -/
theorem withPower (h : Awake s) (v : PowerUnit) (hi : v.state ≠ .init) (hs : v.state ≠ .sleep)
    (hg : v.geometrySweep = s.power.geometrySweep) : Awake (s.withPower v) :=
  ⟨hi, hs, fun hv => (h.sweep (hg ▸ hv)).ofLink (.withPower s v hg)⟩

theorem mapPort (h : Awake s) (p : Port) (f : PortState → PortState) (hs : (f (s.port p)).stream = (s.port p).stream) :
    Awake (s.mapPort p f) := by
  refine h.congr (s.setPort_power p _) fun hc => hc.congr (s.setPort_lane p _) (s.setPort_queue p _) (fun q => ?_)
    (s.setPort_zone p _)
  rw [State.mapPort_eq, State.setPort_port]
  split
  · rename_i hq; rw [hq]; exact hs
  · rfl

end Awake

namespace QuietSound

variable {s t : State}

/-! ## What INIT and SLEEP shut out -/

/-- SLEEP keeps the quiet conditions (R165). -/
theorem sleep_quiet (h : QuietSound s) (hs : s.power.state = .sleep) : s.quiet = true := (h.sleep hs).2.2.2.2.2.1

theorem sleep_closed (h : QuietSound s) (hs : s.power.state = .sleep) (p : Port) : (s.port p).txn = .closed := by
  obtain ⟨-, -, -, -, -, -, -, high⟩ := s.quiet_iff.1 (h.sleep_quiet hs)
  exact high p

theorem sleep_sweep (h : QuietSound s) (hs : s.power.state = .sleep) : s.power.geometrySweep = false := by
  obtain ⟨-, -, -, -, -, -, hg, -⟩ := s.quiet_iff.1 (h.sleep_quiet hs)
  exact hg

theorem sleep_notLoading (h : QuietSound s) (hs : s.power.state = .sleep) (p : Port) (v : Bool) :
    s.table.phase ≠ .loading p v := by
  obtain ⟨-, -, -, -, -, ht, -⟩ := s.quiet_iff.1 (h.sleep_quiet hs)
  exact ht p v

/-- SLEEP finds the part calm, too (R165). -/
theorem sleep_calm (h : QuietSound s) (hs : s.power.state = .sleep) : s.Calm := by
  obtain ⟨-, -, hl, -, hz, hq, -⟩ := h.sleep hs
  obtain ⟨-, -, -, hqueue, hstream, -⟩ := s.quiet_iff.1 hq
  exact ⟨hl, hqueue, hstream, hz⟩

/-- In INIT and SLEEP the supply is OFF. -/
theorem off (h : QuietSound s) (hs : s.power.state = .init ∨ s.power.state = .sleep) : s.supply.state = .off := by
  rcases hs with hs | hs
  · exact (h.init hs).2.1
  · exact (h.sleep hs).2.2.2.1

theorem calm (h : QuietSound s) (hs : s.power.state = .init ∨ s.power.state = .sleep ∨ s.power.geometrySweep = true) :
    s.Calm := by
  rcases hs with hs | hs | hs
  · exact h.sweep (.inl hs)
  · exact h.sleep_calm hs
  · exact h.sweep (.inr hs)

theorem toAwake (h : QuietSound s) (hi : s.power.state ≠ .init) (hs : s.power.state ≠ .sleep) : Awake s :=
  ⟨hi, hs, fun hg => h.sweep (.inr hg)⟩

/-- A transaction that is under way finds the part awake (R161, R166). -/
theorem awake (h : QuietSound s) {p : Port} (hc : (s.port p).txn ≠ .closed) (hd : (s.port p).txn ≠ .discarded) : Awake s :=
  h.toAwake (fun hi => ((h.init hi).2.2 p).elim hc hd) fun hs => hc (h.sleep_closed hs p)

/-! ## What keeps a part at rest -/

theorem State.quiet_ofLink (l : LinkOnly s t) (high : ∀ p, t.selectHigh p = s.selectHigh p) : t.quiet = s.quiet := by
  have hs : t.portA.stream = s.portA.stream ∧ t.portB.stream = s.portB.stream := ⟨l.stream .a, l.stream .b⟩
  simp only [State.quiet, State.allFree, l.supply, l.scan, l.lane, l.queue, l.table, l.sweep, hs.1, hs.2, high]

/-- An event of the link that leaves the power state, and in INIT and SLEEP the transactions and consents. -/
theorem ofLink (h : QuietSound s) (l : LinkOnly s t) (state : t.power.state = s.power.state)
    (init : s.power.state = .init → ∀ p, (t.port p).txn = .closed ∨ (t.port p).txn = .discarded)
    (sleep : s.power.state = .sleep → (∀ p, (t.port p).txn = .closed ∧ (t.port p).consent = (s.port p).consent) ∧
      t.temp = s.temp) : QuietSound t := by
  refine ⟨fun hs => ?_, fun hi => ?_, fun hs => ?_⟩
  · rw [state, l.sweep] at hs
    exact State.Calm.ofLink (h.sweep hs) l
  · rw [state] at hi
    obtain ⟨hg, ho, -⟩ := h.init hi
    exact ⟨l.sweep.trans hg, by rw [l.supply]; exact ho, init hi⟩
  · rw [state] at hs
    obtain ⟨hports, htemp⟩ := sleep hs
    obtain ⟨ha, hb, hl, ho, hz, hq, ht⟩ := h.sleep hs
    refine ⟨(hports .a).2.trans ha, (hports .b).2.trans hb, ?_, by rw [l.supply]; exact ho, ?_, ?_, by rw [htemp]; exact ht⟩
    · simpa only [State.allFree, l.lane] using hl
    · simpa only [State.noZone, l.zone] using hz
    · rw [State.quiet_ofLink l fun p => by simp [State.selectHigh, (hports p).1, h.sleep_closed hs p]]
      exact hq

/-- A change of one port that leaves its stream, and in INIT and SLEEP its transaction and consent. -/
theorem mapPort (h : QuietSound s) (p : Port) (f : PortState → PortState) (stream : (f (s.port p)).stream = (s.port p).stream)
    (ctx : (f (s.port p)).ctx = (s.port p).ctx)
    (init : s.power.state = .init → (f (s.port p)).txn = .closed ∨ (f (s.port p)).txn = .discarded)
    (sleep : s.power.state = .sleep → (f (s.port p)).txn = .closed ∧ (f (s.port p)).consent = (s.port p).consent) :
    QuietSound (s.mapPort p f) := by
  refine h.ofLink (.mapPort s p f stream ctx) (by simp) (fun hi q => ?_) fun hs => ⟨fun q => ?_, by simp⟩ <;>
    rw [State.mapPort_eq, State.setPort_port] <;> split
  · exact init hi
  · exact (h.init hi).2.2 q
  · rename_i hq; rw [hq]; exact sleep hs
  · exact ⟨h.sleep_closed hs q, rfl⟩

/-- The supply may change, but stays OFF where it is. -/
theorem withSupply (h : QuietSound s) (v : Supply) (off : s.supply.state = .off → v.state = .off) :
    QuietSound (s.withSupply v) := by
  refine ⟨h.sweep, fun hi => ?_, fun hs => ?_⟩
  · obtain ⟨hg, ho, ht⟩ := h.init hi
    exact ⟨hg, off ho, ht⟩
  · obtain ⟨ha, hb, hl, ho, hz, hq, ht⟩ := h.sleep hs
    refine ⟨ha, hb, hl, off ho, hz, ?_, ht⟩
    rw [State.quiet_iff] at hq ⊢
    exact ⟨off ho, hq.2⟩

end QuietSound

/-! ## What follows every event -/

/-- SLEEP is entered on the quiet conditions, with both consents set and no zone active (R165). -/
theorem QuietSound.enterSleep {s : State} (hq : s.quiet = true) (ha : s.sleepAgreed = true) : QuietSound s.enterSleep := by
  have hquiet : s.enterSleep.quiet = true := hq
  obtain ⟨hoff, -, hfree, -, -, -, hg, -⟩ := s.quiet_iff.1 hq
  simp only [State.sleepAgreed, Bool.and_eq_true] at ha
  obtain ⟨⟨hca, hcb⟩, hz⟩ := ha
  have awake : s.enterSleep.power.state = .init ∨ s.enterSleep.power.geometrySweep = true → False := fun h =>
    h.elim (fun h => by cases h) fun h => absurd (h.symm.trans hg) (by simp)
  exact ⟨fun h => (awake h).elim, fun h => (awake (.inl h)).elim, fun _ => ⟨hca, hcb, hfree, hoff, hz, hquiet, rfl⟩⟩

theorem Awake.judgePower {s : State} (h : Awake s) : QuietSound s.judgePower := by
  unfold State.judgePower
  split
  · rename_i hr
    split
    · rename_i hq
      split
      · exact .enterSleep hq ‹_›
      · split
        · exact Awake.quiet (h.withPower { s.power with dozeTimer := some s.power.dozeDelay } h.init h.sleep rfl)
        · exact h.quiet
    · exact Awake.quiet (h.withPower { s.power with dozeTimer := none } h.init h.sleep rfl)
  · split
    · rename_i hq
      rw [Bool.and_eq_true] at hq
      exact .enterSleep hq.1 hq.2
    · exact h.quiet
  · exact h.quiet

theorem QuietSound.endResetWait {s : State} (h : QuietSound s) : QuietSound s.endResetWait := by
  refine h.ofLink (.endResetWait s) ?_ (fun hi p => ?_) fun hs => ⟨fun p => ?_, by simp⟩
  · unfold State.endResetWait
    split <;> rfl
  · rw [State.endResetWait_port]; exact (h.init hi).2.2 p
  · rw [State.endResetWait_port]; exact ⟨h.sleep_closed hs p, rfl⟩

theorem QuietSound.noteReady {s : State} (h : QuietSound s) (p : Port) : QuietSound (s.noteReady p) := by
  unfold State.noteReady
  split
  · rename_i htxn
    have ha : Awake s := h.awake (p := p) (by simp [htxn]) (by simp [htxn])
    split
    · exact (ha.mapPort p _ (by rfl)).quiet
    · exact h
  · exact h

theorem QuietSound.judgePower {s : State} (h : QuietSound s) : QuietSound s.judgePower := by
  by_cases hi : s.power.state = .init
  · rwa [show s.judgePower = s by simp [State.judgePower, hi]]
  by_cases hs : s.power.state = .sleep
  · rwa [show s.judgePower = s by simp [State.judgePower, hs]]
  exact (h.toAwake hi hs).judgePower

/-- What follows every event keeps the part at rest where it was, and brings it to rest on the conditions alone (R162,
R165). -/
theorem QuietSound.settle {s : State} (h : QuietSound s) : QuietSound s.settle :=
  ((h.endResetWait.noteReady .a).noteReady .b).judgePower

/-! ## Select edges -/

theorem State.wake_power (s : State) (p : Port) :
    (s.wake p).power = { s.power with state := .waking, dozeTimer := none } := by
  unfold State.wake State.goStale
  simp only
  split <;> simp [State.raiseBoth_eq, State.raise_eq, State.setResult_eq, State.mapPorts]

/-- The wake finds no geometry sweep (R166). -/
theorem QuietSound.wake {s : State} (h : QuietSound s) (hs : s.power.state = .sleep) (p : Port) : Awake (s.wake p) := by
  refine ⟨?_, ?_, fun hg => ?_⟩
  · rw [State.wake_power]; simp
  · rw [State.wake_power]; simp
  · rw [State.wake_power] at hg
    exact absurd (hg.symm.trans (h.sleep_sweep hs)) (by simp)

/-- A select that falls in INIT or SLEEP opens no transaction (R161, R166). -/
theorem QuietSound.selectFalls {s : State} (h : QuietSound s) (p : Port) : QuietSound (s.selectFalls p) := by
  have hd : QuietSound (s.mapPort p fun q => { q with dataOut := [], outCount := 0, outMark := 0 }) :=
    h.mapPort p _ rfl rfl (fun hi => (h.init hi).2.2 p) fun hs => ⟨h.sleep_closed hs p, rfl⟩
  unfold State.selectFalls
  simp only
  split
  · rename_i hi
    exact hd.mapPort p _ (by rfl) (by rfl) (fun _ => .inr rfl) fun hs => absurd (hi.symm.trans hs) (by decide)
  · rename_i hs
    exact (hd.wake hs p).quiet
  · rename_i hi hs
    have ha := hd.toAwake hi hs
    refine ((ha.mapPort p _ (by rfl)).withPower _ ?_ ?_ (by rfl)).quiet <;> simp only <;> split
    · simp
    · simpa using ha.init
    · simp
    · simpa using ha.sleep

theorem QuietSound.opened {s : State} (h : QuietSound s) (p : Port) : QuietSound (s.opened p) := by
  unfold State.opened
  split
  · exact (h.selectFalls p).settle
  · exact h

end Sys2Proof.Machine
end

section
/-! The part at rest through the events of the link (R161, R162, R165, R166): a transaction under way finds it awake, and no
command but SET_GEOMETRY begins a sweep.
-/

namespace Sys2Proof.Machine

/-! ## The effects of commands -/

@[simp] theorem State.setResult_power (s : State) (p : Port) (r : Result) : (s.setResult p r).power = s.power :=
  (LaneOnly.setResult s p r).power

@[simp] theorem State.raise_power (s : State) (p : Port) (f : Flag) : (s.raise p f).power = s.power :=
  (LaneOnly.raise s p f).power

@[simp] theorem State.raiseBoth_power (s : State) (f : Flag) : (s.raiseBoth f).power = s.power :=
  (LaneOnly.raiseBoth s f).power

@[simp] theorem State.appendDone_power (s : State) (p : Port) (d : DoneRecord) : (s.appendDone p d).power = s.power :=
  (LaneOnly.appendDone s p d).power

@[simp] theorem State.answer_power (s : State) (p : Port) (data : List Byte) (own : PortState → PortState) :
    (s.answer p data own).power = s.power := by simp [State.answer]

@[simp] theorem State.endOwned_power (s : State) (mine : Port → Bool) (q : List Request) :
    (s.endOwned mine q).power = s.power := by
  obtain ⟨v, hv, -⟩ := s.endOwned_eq mine q
  rw [hv, State.withZones_power, State.withQueue_power, (LaneOnly.endLanes s mine).power]

theorem effectWithdraw_power (p : Port) (req : List Byte) (s : State) : (effectWithdraw p req s).power = s.power := by
  unfold effectWithdraw
  simp only
  split
  · exact State.setResult_power s p _
  · split
    · rw [State.setResult_power, State.appendDone_power, State.mapPort_eq, State.setPort_power]
    · split
      · rw [State.setResult_power, State.reconsider_power, State.appendDone_power, State.withQueue_power]
      · split
        · exact (LaneOnly.withdrawLane s p _).power
        · exact State.setResult_power s p _

theorem effectPortReset_power (p : Port) (req : List Byte) (s : State) : (effectPortReset p req s).power = s.power := by
  rw [effectPortReset_eq]
  simp

theorem effectPartReset_sweep (p : Port) (req : List Byte) (s : State) :
    (effectPartReset p req s).power.geometrySweep = s.power.geometrySweep := by
  rw [effectPartReset_eq]
  simp [State.resetSettings, State.mapPorts]

/-- No command but SET_GEOMETRY and the two that set the Power Controller's settings reaches the Power Controller. -/
theorem effectOf_sweep (i : Instr) (s : State) (hi : ∀ p r, i ≠ .setGeometry p r) :
    (effectOf i s).power.geometrySweep = s.power.geometrySweep := by
  cases i with
  | setGeometry p r => exact absurd rfl (hi p r)
  | setWindow p r => simp only [effectOf, effectSetWindow, State.mapContext]; split <;> simp
  | setFormat p r => simp only [effectOf, effectSetFormat, State.mapContext]; split <;> simp
  | setOrientation p r => simp only [effectOf, effectSetOrientation, State.mapContext]; split <;> simp
  | fillWindow p r =>
    simp only [effectOf, effectFillWindow, State.pushEntry]
    split
    · split <;> simp
    · simp
  | submitUpdate p r =>
    simp only [effectOf, effectSubmitUpdate, State.pushEntry]
    split
    · simp
    · split
      · simp
      · split
        · simp
        · split <;> simp
  | withdraw p r => rw [effectOf, effectWithdraw_power]
  | reserveZone p r =>
    simp only [effectOf, effectReserveZone]
    split
    · simp
    · split
      · simp
      · split <;> simp
  | releaseZone p r =>
    simp only [effectOf, effectReleaseZone]
    split
    · simp
    · split
      · simp
      · split <;> simp
  | reportTemperature p r => simp [effectOf, effectReportTemperature]
  | tableBegin p r =>
    simp only [effectOf, effectTableBegin]
    split
    · simp
    · split
      · split <;> simp
      · simp
      · simp
  | tableData p r =>
    simp only [effectOf, effectTableData]
    split
    · split
      · split <;> simp
      · simp
    · simp
  | tableEnd p r =>
    simp only [effectOf, effectTableEnd]
    split
    · split <;> simp
    · simp
  | tableAbort p r =>
    simp only [effectOf, effectTableAbort, State.abortLoad]
    split
    · split <;> simp
    · simp
  | getTableInfo p r => simp [effectOf, effectGetTableInfo]
  | setLimits p r => simp [effectOf, effectSetLimits]
  | setTimers p r => simp [effectOf, effectSetTimers]
  | setFrameMark p r => simp [effectOf, effectSetFrameMark]
  | getEvents p r => simp [effectOf, effectGetEvents]
  | setEventEnable p r => simp only [effectOf, effectSetEventEnable]; split <;> simp
  | getDone p r => simp only [effectOf, effectGetDone]; split <;> simp
  | getResult p r => simp [effectOf, effectGetResult]
  | getStatus p r => simp [effectOf, effectGetStatus]
  | getScan p r => simp [effectOf, effectGetScan]
  | getPixel p r => simp only [effectOf, effectGetPixel]; split <;> simp
  | getId p r => simp [effectOf, effectGetId]
  | sleep p r => simp [effectOf, effectSleep]
  | portReset p r => rw [effectOf, effectPortReset_power]
  | partReset p r => rw [effectOf, effectPartReset_sweep]
  | _ => rfl

/-- SET_GEOMETRY begins its sweep only while the part is calm (R67). -/
theorem Awake.setGeometry {s : State} (h : Awake s) (p : Port) (req : List Byte) : Awake (effectSetGeometry p req s) := by
  have refused (r : Result) : Awake (s.setResult p r) := h.ofLink (.setResult s p r) (s.setResult_power p r)
  unfold effectSetGeometry
  simp only
  split
  · exact refused _
  · split
    · exact refused _
    · rename_i hfree
      have hf : s.geometryFree p = true := by simpa using hfree
      simp only [State.geometryFree, Bool.and_eq_true, List.isEmpty_iff] at hf
      obtain ⟨⟨⟨⟨⟨hl, hq⟩, hsa⟩, hsb⟩, hz⟩, -⟩ := hf
      have hc : s.Calm := ⟨hl, hq, fun p => (by cases p; exacts [hsa, hsb]), hz⟩
      refine ⟨?_, ?_, fun _ => State.Calm.ofLink ?_ (.setResult _ p _)⟩
      · rw [State.setResult_power]; exact h.init
      · rw [State.setResult_power]; exact h.sleep
      · exact hc.congr (fun _ => rfl) rfl (fun p => by cases p <;> rfl) fun _ => rfl

/-- An effect is made while no sweep runs, and leaves the part awake. -/
theorem Awake.effect {s : State} (h : Awake s) (hg : s.power.geometrySweep = false) (i : Instr) : Awake (effectOf i s) := by
  by_cases hi : ∃ p r, i = .setGeometry p r
  · obtain ⟨p, r, rfl⟩ := hi
    exact h.setGeometry p r
  · have hs := effectOf_sweep i s fun p r hc => hi ⟨p, r, hc⟩
    have hp := (effectOf_frame i s).power
    exact ⟨hp ▸ h.init, hp ▸ h.sleep, fun hc => absurd (hc.symm.trans (hs.trans hg)) (by simp)⟩

/-! ## Rises -/

namespace Awake

variable {s : State}

theorem setResult (h : Awake s) (p : Port) (r : Result) : Awake (s.setResult p r) :=
  h.ofLink (.setResult s p r) (s.setResult_power p r)

theorem raise (h : Awake s) (p : Port) (f : Flag) : Awake (s.raise p f) := h.ofLink (.raise s p f) (s.raise_power p f)

theorem refuseFrame (h : Awake s) (p : Port) (fr : Frame) : Awake (s.refuseFrame p fr) := by
  unfold State.refuseFrame
  refine Awake.setResult ?_ p _
  split
  · exact h.mapPort p _ (by rfl)
  · exact h

theorem hold (h : Awake s) (p : Port) (x : Held) : Awake (s.hold p x) := h.mapPort p _ (by rfl)

theorem closeTransaction (h : Awake s) (p : Port) (n : Nat) : Awake (s.closeTransaction p n) := h.mapPort p _ (by rfl)

theorem closeStream (h : Awake s) (p : Port) : Awake (s.closeStream p) := h.mapPort p _ (by rfl)

theorem refuseUntaken (h : Awake s) (p : Port) (n : Nat) : Awake (s.refuseUntaken p n) := by
  have hc : Awake ((s.clockZeros p n).closeTransaction p 0) := Awake.closeTransaction (h.mapPort p _ (by rfl)) p 0
  unfold State.refuseUntaken
  simp only
  split
  · exact hc.hold p _
  · exact hc.refuseFrame p _

theorem discardPixelByte (h : Awake s) (p : Port) : Awake (s.discardPixelByte p) := Awake.raise (h.mapPort p _ (by rfl)) p _

/-- A timer that expires in DOZE returns the part to RUN (R163). -/
theorem leaveDoze (h : Awake s) : Awake s.leaveDoze := by
  unfold State.leaveDoze
  split
  · exact h.withPower { s.power with state := .run } (by simp) (by simp) rfl
  · exact h

/-- A transaction held that is no command changes nothing but its port (R168). -/
theorem takeHeld (h : Awake s) (p : Port) (x : Held) (hx : ∀ i, x ≠ .command i) : Awake (State.takeHeld p s x) := by
  cases x with
  | command i => exact absurd rfl (hx i)
  | writeEnd r => exact h.setResult p r
  | untaken => exact Awake.refuseFrame (h.mapPort p (fun q => { q with consent := false }) rfl) p .stream

end Awake

namespace QuietSound

variable {s : State}

/-- A change of one port that leaves its stream, its transaction and its consent. -/
theorem samePort (h : QuietSound s) (p : Port) (f : PortState → PortState)
    (stream : (f (s.port p)).stream = (s.port p).stream) (ctx : (f (s.port p)).ctx = (s.port p).ctx)
    (txn : (f (s.port p)).txn = (s.port p).txn) (consent : (f (s.port p)).consent = (s.port p).consent) :
    QuietSound (s.mapPort p f) :=
  h.mapPort p f stream ctx (fun hi => txn ▸ (h.init hi).2.2 p) fun hs => ⟨txn.trans (h.sleep_closed hs p), consent⟩

theorem clockZeros (h : QuietSound s) (p : Port) (n : Nat) : QuietSound (s.clockZeros p n) :=
  h.samePort p _ (by rfl) (by rfl) (by rfl) (by rfl)

theorem clockUntaken (h : QuietSound s) (p : Port) : QuietSound (s.clockUntaken p) := by
  unfold State.clockUntaken
  split
  · exact h.clockZeros p 1
  · split
    · exact h
    · exact (h.clockZeros p 1).samePort p _ (by rfl) (by rfl) (by rfl) (by rfl)
  · exact h

/-- The rise of a discarded transaction closes it (R161, R166). -/
theorem closeDiscarded (h : QuietSound s) (p : Port) (n : Nat) : QuietSound (s.closeDiscarded p n) :=
  (h.clockZeros p n).mapPort p _ (by rfl) (by rfl) (fun _ => .inl rfl) fun _ => ⟨rfl, rfl⟩

theorem riseWithoutCode (h : QuietSound s) (p : Port) : QuietSound (s.riseWithoutCode p) := by
  unfold State.riseWithoutCode
  split
  · rename_i htxn
    exact ((h.awake (p := p) (by simp [htxn]) (by simp [htxn])).refuseUntaken p 0).quiet
  · exact h.closeDiscarded p 0
  · exact h

theorem endWrite (h : QuietSound s) (p : Port) : QuietSound (s.endWrite p) := by
  unfold State.endWrite
  split
  · rename_i htxn
    have ha : Awake (s.closeStream p) := (h.awake (p := p) (by simp [htxn]) (by simp [htxn])).closeStream p
    simp only
    split
    · exact (ha.hold p _).quiet
    · exact (ha.setResult p _).quiet
  · exact h.riseWithoutCode p

theorem endRead (h : QuietSound s) (p : Port) : QuietSound (s.endRead p) := by
  unfold State.endRead
  split
  · rename_i htxn
    have ha : Awake (s.closeStream p) := (h.awake (p := p) (by simp [htxn]) (by simp [htxn])).closeStream p
    exact (ha.setResult p _).quiet
  · exact h.riseWithoutCode p

/-- The rise of a command: one that takes effect was opened with the part awake (R61, R161, R166). -/
theorem transact (h : QuietSound s) (p : Port) (fr : Frame) (req : List Byte) (i : Instr) :
    QuietSound (s.transact p fr req i (effectOf i)) := by
  have ho := h.opened p
  unfold State.transact
  simp only
  split
  · rename_i htxn
    have ha : Awake ((s.opened p).closeTransaction p (req.length + 1)) :=
      (ho.awake (p := p) (by simp [htxn]) (by simp [htxn])).closeTransaction p _
    split
    · exact (ha.refuseFrame p fr).quiet
    · split
      · exact (Awake.hold (ha.mapPort p _ (by rfl)) p _).quiet
      · rename_i hg
        exact (ha.effect (by simpa using hg) i).quiet
  · rename_i htxn
    exact ((ho.awake (p := p) (by simp [htxn]) (by simp [htxn])).refuseUntaken p _).quiet
  · exact ho.closeDiscarded p _
  · exact ho

/-- The code of a streaming command is taken with the part awake (R62, R63, R66). -/
theorem takeCode (h : QuietSound s) (p : Port) (f : PortState → PortState) (hs : ∀ q, (f q).stream = q.stream) :
    QuietSound (s.takeCode p f) := by
  have ho := h.opened p
  unfold State.takeCode
  simp only
  split
  · rename_i htxn
    have ha : Awake (s.opened p) := ho.awake (p := p) (by simp [htxn]) (by simp [htxn])
    split
    · have hsent : Awake ((s.opened p).sendResponseByte p) := ha.mapPort p _ (by rfl)
      exact QuietSound.settle (hsent.mapPort p f (hs _)).quiet
    · exact ho.clockUntaken p
  · exact ho.clockUntaken p

theorem unknownCommand (h : QuietSound s) (p : Port) (taken : List Byte) :
    Answers (execUnknownCommand p taken s) QuietSound := by
  have ho := h.opened p
  unfold execUnknownCommand
  split
  · refine ⟨_, rfl, ?_⟩
    split
    · rename_i htxn
      have ha : Awake (s.opened p) := ho.awake (p := p) (by simp [htxn]) (by simp [htxn])
      refine QuietSound.settle ?_
      split
      · exact ((ha.closeTransaction p _).refuseFrame p _).quiet
      · exact (ha.refuseUntaken p _).quiet
    · exact QuietSound.settle (ho.closeDiscarded p _)
    · exact ho
  · exact .next h

theorem pixelByteDiscarded (h : QuietSound s) (p : Port) : Answers (execPixelByteDiscarded p s) QuietSound := by
  unfold execPixelByteDiscarded
  split
  · rename_i htxn
    refine ⟨_, rfl, ?_⟩
    split
    · exact h
    · exact QuietSound.settle ((h.awake (p := p) (by simp [htxn]) (by simp [htxn])).discardPixelByte p).quiet
  · exact ⟨_, rfl, h.clockUntaken p⟩

theorem readbackByte (h : QuietSound s) (p : Port) : Answers (execReadbackByte p s) QuietSound := by
  unfold execReadbackByte
  split
  · rename_i r htxn
    split
    · have ha := (h.awake (p := p) (by simp [htxn]) (by simp [htxn])).mapPort p
        (fun q => { q with dataOut := q.dataOut ++ [r.clock.1], txn := .reading r.clock.2 }) rfl
      refine ⟨_, rfl, QuietSound.settle ?_⟩
      split
      · exact (ha.raise p _).quiet
      · exact ha.quiet
    · exact ⟨_, rfl, h.clockZeros p 1⟩
  · rename_i htxn
    have ha : Awake s := h.awake (p := p) (by simp [htxn]) (by simp [htxn])
    refine ⟨_, rfl, ?_⟩
    split
    · exact (Awake.mapPort (ha.mapPort p _ (by rfl)) p _ (by rfl)).quiet
    · exact h.clockUntaken p
  · exact ⟨_, rfl, h.clockUntaken p⟩

/-! ## Timers and start-up -/

theorem leaveDoze (h : QuietSound s) : QuietSound s.leaveDoze := by
  by_cases hd : s.power.state = .doze
  · exact (h.toAwake (by simp [hd]) (by simp [hd])).leaveDoze.quiet
  · rwa [State.leaveDoze, if_neg hd]

theorem goStale (h : QuietSound s) (hs : s.power.state ≠ .sleep) : QuietSound s.goStale := by
  refine h.ofLink (.goStale s) ?_ (fun hi p => ?_) fun hc => absurd hc hs
  · unfold State.goStale
    split
    · rw [State.raiseBoth_power]; rfl
    · rfl
  · have htxn : (s.goStale.port p).txn = (s.port p).txn := by
      unfold State.goStale
      split
      · exact (LaneOnly.raiseBoth _ _).txn p
      · rfl
    rw [htxn]; exact (h.init hi).2.2 p

/-- The stale timer does not run in SLEEP (R165). -/
theorem staleTimerExpiry (h : QuietSound s) : Answers (execStaleTimerExpiry s) QuietSound := by
  unfold execStaleTimerExpiry
  split
  · rename_i ht
    have hs : s.power.state ≠ .sleep := fun hs => by simp [(h.sleep hs).2.2.2.2.2.2] at ht
    have hd : s.leaveDoze.power.state ≠ .sleep := by
      unfold State.leaveDoze
      split
      · simp
      · exact hs
    exact ⟨_, rfl, QuietSound.settle (h.leaveDoze.goStale hd)⟩
  · exact .next h

theorem dozeTimerExpiry (h : QuietSound s) : Answers (execDozeTimerExpiry s) QuietSound := by
  unfold execDozeTimerExpiry
  split
  · rename_i hr
    have ha : Awake s := h.toAwake (by simp [hr.1]) (by simp [hr.1])
    exact ⟨_, rfl, QuietSound.settle (ha.withPower { s.power with state := .doze, dozeTimer := none } (by simp) (by simp)
      rfl).quiet⟩
  · exact .next h

theorem wakingEnd (h : QuietSound s) : Answers (execWakingEnd s) QuietSound := by
  unfold execWakingEnd
  split
  · rename_i hr
    have ha : Awake s := h.toAwake (by simp [hr]) (by simp [hr])
    exact ⟨_, rfl, QuietSound.settle (ha.withPower { s.power with state := .run } (by simp) (by simp) rfl).quiet⟩
  · exact .next h

theorem resetNRise (h : QuietSound s) : Answers (execResetNRise s) QuietSound := by
  refine ⟨_, rfl, ?_⟩
  split
  · rename_i hi
    exact ⟨fun hs => h.sweep hs, fun _ => h.init hi, fun hs => absurd (hi.symm.trans hs) (by decide)⟩
  · exact h

/-- The init sweep ends in RUN (R161). -/
theorem initSweepEnd (h : QuietSound s) : Answers (execInitSweepEnd s) QuietSound := by
  unfold execInitSweepEnd
  split
  · rename_i hi
    refine ⟨_, rfl, QuietSound.settle (Awake.quiet ⟨by simp, by simp, fun hg => ?_⟩)⟩
    exact absurd ((h.init hi.1).1.symm.trans hg) (by simp)
  · exact .next h

end QuietSound

end Sys2Proof.Machine
end

section
/-! The part at rest through every event, and O59: an engine finds no work while the part is at rest, so that an event of one
finds it awake.
-/

namespace Sys2Proof.Machine

/-! ## What a part at rest leaves the engines -/

/-- The events of the drains, the Survey Engine, the Frame Scanner and the Retire Engine. -/
def isEngineEvent : Instr → Bool
  | .drainPixelEntry _ | .drainFillPixel _ | .drainSubmitEntry _ | .surveyStart | .surveyVisit _ | .surveyEnd | .scanStart
  | .frameRow _ | .frameBoundary | .retireVisit | .retireWalkEnd => true
  | _ => false

/-- A calm part whose lanes are sound is idle. -/
theorem State.Calm.idle {s : State} (h : s.Calm) (hl : LanesSound s) : Idle s :=
  .ofFree hl ((State.allFree_iff s).1 h.1) h.2.1

/-- At rest no engine has a lane and no stream an entry, so their events do nothing. -/
theorem exec_engineEvent_idle {s : State} {i : Instr} (hi : isEngineEvent i = true) (hc : s.Calm) (h : Idle s) :
    exec i s = .next s := by
  obtain ⟨-, -, stream, -⟩ := hc
  cases i with
  | drainPixelEntry p => simp [exec, execDrainPixelEntry, stream p]
  | drainFillPixel p => simp [exec, execDrainFillPixel, stream p]
  | drainSubmitEntry p => simp [exec, execDrainSubmitEntry, stream p]
  | surveyStart => simp [exec, execSurveyStart, h.surveyList]
  | surveyVisit part => simp [exec, execSurveyVisit, h.survey]
  | surveyEnd => simp [exec, execSurveyEnd, h.survey]
  | scanStart => simp [exec, execScanStart, h.armingList]
  | frameRow n => simp [exec, execFrameRow, h.scanning]
  | frameBoundary => simp [exec, execFrameBoundary, h.scanning]
  | retireVisit => simp [exec, execRetireVisit, h.retire]
  | retireWalkEnd => simp [exec, execRetireWalkEnd, h.retire]
  | _ => exact absurd hi Bool.false_ne_true

theorem State.finishVisit_power (s : State) (w : Survey) (x : Pos) (v : Level) : (s.finishVisit w x v).power = s.power := by
  rw [State.finishVisit, State.withSurvey_power, State.visitRecord]
  split
  · exact (LaneOnly.mapLane s _ _).power
  · exact (LaneOnly.mapLane s _ _).power
  · exact (LaneOnly.mapLane s _ _).power
  · rfl
  · rw [State.setPixel, State.withPixels_power, (LaneOnly.mapLane s _ _).power]

theorem State.drive_power (s : State) (visits : Pos → Bool) : (s.drive visits).power = s.power := by
  obtain ⟨lanes, hd, -⟩ := s.drive_eq visits
  rw [hd]; rfl

/-- The event does nothing, or reaches the Power Controller only in what follows every event. -/
def LeavesPower (s t : State) : Prop := t = s ∨ ∃ u : State, u.power = s.power ∧ t = u.settle

/-- What the lanes and the scan do at a boundary does not reach the Power Controller. -/
theorem State.advanced_power (s : State) : (if (s.advance.lanesIn .running).isEmpty then s.advance.endScan
    else (s.advance.admitLane s.advance.admissible).withScan
      (s.advance.admitLane s.advance.admissible).scan.beginFrame).power = s.power := by
  have ha := (LaneOnly.advance s).power
  split
  · rw [State.endScan, State.withSupply_power, State.withScan_power, ha]
  · rw [State.withScan_power, (LaneOnly.admitLane _ _).power, ha]

theorem exec_frameBoundary_power (s : State) : Answers (execFrameBoundary s) (LeavesPower s) := by
  unfold execFrameBoundary
  split
  · have hf : s.finishFrame.power = s.power := by rw [State.finishFrame, State.withScan_power, State.drive_power]
    refine .next (.inr ⟨_, ?_, rfl⟩)
    rw [(LaneOnly.startRetire _).power]
    refine (State.advanced_power _).trans ?_
    rw [State.withSupply_power, State.withScan_power, hf]
  · exact .next (.inl rfl)

theorem exec_engineEvent_power {s : State} {i : Instr} (hi : isEngineEvent i = true) :
    Answers (exec i s) (LeavesPower s) := by
  have same : Answers (.next s) (LeavesPower s) := .next (.inl rfl)
  have settled (u : State) (hu : u.power = s.power) : Answers (.next u.settle) (LeavesPower s) := .next (.inr ⟨u, hu, rfl⟩)
  cases i with
  | drainPixelEntry p =>
    simp only [exec, execDrainPixelEntry]
    split
    · split
      · exact settled _ (by simp [State.setLevel])
      · exact same
    · exact same
  | drainFillPixel p =>
    simp only [exec, execDrainFillPixel]
    split
    · split
      · exact settled _ (by simp [State.setLevel])
      · exact same
    · exact same
  | drainSubmitEntry p =>
    simp only [exec, execDrainSubmitEntry]
    split
    · exact settled _ (by rw [(LaneOnly.enterQueue _ _).power, State.mapPort_eq, State.setPort_power])
    · exact same
  | surveyStart =>
    simp only [exec, execSurveyStart]
    split
    · exact settled _ rfl
    · exact same
  | surveyVisit part =>
    simp only [exec, execSurveyVisit]
    split
    · split
      · split
        · exact settled _ (s.finishVisit_power _ _ _)
        · exact same
      · split
        · split
          · exact settled _ ((State.finishVisit_power _ _ _ _).trans rfl)
          · exact settled _ rfl
        · exact same
      · exact same
    · exact same
  | surveyEnd =>
    have hc := (LaneOnly.closeSurvey s).power
    simp only [exec, execSurveyEnd]
    split
    · split
      · split
        · refine settled _ ?_
          rw [State.reconsider_power, (LaneOnly.setLane _ _ _).power, (LaneOnly.reportLane _ _ _).power, hc]
        · split
          · refine settled _ ?_
            rw [(LaneOnly.startRetire _).power, (LaneOnly.joinRetire _ _ _ _).power, hc]
          · refine settled _ ?_
            obtain ⟨v, hv⟩ := State.raiseOnDemand_eq _
            rw [hv, State.withSupply_power, State.withArmingList_power, (LaneOnly.mapLane _ _ _).power, hc]
      · exact same
    · exact same
  | scanStart =>
    simp only [exec, execScanStart]
    split
    · split
      · exact settled _ (LaneOnly.admitLane s _).power
      · exact same
    · exact same
  | frameRow n =>
    simp only [exec, execFrameRow]
    split
    · refine settled _ ?_
      rw [State.withScan_power, State.drive_power]
    · exact same
  | frameBoundary => exact exec_frameBoundary_power s
  | retireVisit =>
    simp only [exec, execRetireVisit]
    split
    · split
      · refine settled _ ?_
        split <;> rfl
      · exact same
    · exact same
  | retireWalkEnd =>
    simp only [exec, execRetireWalkEnd]
    split
    · split
      · refine settled _ ?_
        rw [(LaneOnly.startRetire _).power, State.reconsider_power, State.withRetire_power, State.withRetireList_power,
          (LaneOnly.setLane _ _ _).power, (LaneOnly.reportLane _ _ _).power]
      · exact same
    · exact same
  | _ => exact absurd hi Bool.false_ne_true

end Sys2Proof.Machine
end

section
/-! The supply, the table, the zones and the sweeps with the part at rest, and O59.
-/

namespace Sys2Proof.Machine

/-! ## Trips -/

namespace Idle

variable {s : State}

theorem lanesIn (h : Idle s) {st : LaneState} (hst : st ≠ .free) : s.lanesIn st = [] :=
  List.eq_nil_iff_forall_not_mem.2 fun l hl => hst (by rw [← (s.mem_lanesIn st l).1 hl, h.rest l]; rfl)

theorem faultRunning (h : Idle s) : s.faultRunning = s := by
  rw [State.faultRunning, h.lanesIn (by decide)]; rfl

theorem haltLanes (h : Idle s) : s.haltLanes = s.withArmingList [] := by
  have hc : s.closeSurvey = s := by rw [State.closeSurvey_eq, h.survey]
  unfold State.haltLanes
  simp only
  rw [h.lanesIn (st := .armed) (by decide), h.lanesIn (st := .survey) (by decide), List.append_nil, List.foldl_nil, hc,
    State.withArmingList_surveyList, h.surveyList, List.foldl_nil, State.reconsider_empty]
  exact h.queue

end Idle

/-- The part is calm and no list or engine holds a lane. -/
structure Rests (s : State) : Prop where
  calm : s.Calm
  idle : Idle s

namespace Rests

variable {s t : State}

theorem ofLink (h : Rests s) (l : LinkOnly s t) : Rests t := ⟨h.calm.ofLink l, h.idle.ofLink l⟩

theorem withSupply (h : Rests s) (v : Supply) : Rests (s.withSupply v) :=
  ⟨h.calm.congr (fun _ => rfl) rfl (fun p => by simp) fun _ => rfl, h.idle.ofBody rfl⟩

theorem toIdle (h : Rests s) : Rests (s.withScan s.scan.toIdle) :=
  ⟨h.calm.congr (fun _ => rfl) rfl (fun p => by simp) fun _ => rfl, h.idle.withScan _ rfl rfl⟩

theorem faultRunning (h : Rests s) : Rests s.faultRunning := by rwa [h.idle.faultRunning]

theorem haltLanes (h : Rests s) : Rests s.haltLanes := by
  rw [h.idle.haltLanes]
  have hi := h.idle
  exact ⟨h.calm.congr (fun _ => rfl) rfl (fun p => by simp) fun _ => rfl, ⟨hi.rest, hi.queue, hi.surveyList, hi.survey, rfl,
    hi.retireList, hi.retire, hi.scanning, hi.pendingMark⟩⟩

/-- A trip while nothing is driven ends no lane and leaves the part calm (R153, R156). -/
theorem trip (h : Rests s) (cause : TripCause) : (s.trip cause).Calm := by
  have ht := (h.withSupply (s.supply.trip cause)).faultRunning.toIdle.ofLink (.raiseBoth _ .supplyFault)
  have retired {t : State} (hr : Rests t) : t.startRetire.Calm := by
    obtain ⟨w, hw, -⟩ := t.startRetire_eq
    rw [hw]
    exact hr.calm.congr (fun _ => rfl) rfl (fun p => by simp) fun _ => rfl
  unfold State.trip
  simp only
  refine retired ?_
  split
  · exact (ht.ofLink (.raiseBoth _ .halted)).haltLanes
  · exact ht

end Rests

theorem State.trip_power (s : State) (cause : TripCause) : (s.trip cause).power = s.power := by
  have hf : ((s.withSupply (s.supply.trip cause)).faultRunning.withScan
      (s.withSupply (s.supply.trip cause)).faultRunning.scan.toIdle).power = s.power := by
    rw [State.withScan_power, (LaneOnly.faultRunning _).power, State.withSupply_power]
  unfold State.trip
  simp only
  rw [(LaneOnly.startRetire _).power]
  split
  · rw [(LaneOnly.haltLanes _).power, State.raiseBoth_power, State.raiseBoth_power, hf]
  · rw [State.raiseBoth_power, hf]

theorem Awake.trip {s : State} (h : Awake s) (hi : s.Calm → Idle s) (cause : TripCause) : Awake (s.trip cause) :=
  h.congr (s.trip_power cause) fun hc => Rests.trip ⟨hc, hi hc⟩ cause

theorem Awake.withSupply {s : State} (h : Awake s) (v : Supply) : Awake (s.withSupply v) :=
  h.congr rfl fun hc => hc.congr (fun _ => rfl) rfl (fun p => by simp) fun _ => rfl

theorem Transaction.abandoned_closed (t : Transaction) : t.abandoned = .closed ∨ t.abandoned = .discarded := by
  cases t <;> simp [Transaction.abandoned]

namespace QuietSound

variable {s t : State}

/-! ## The supply -/

/-- A supply that is not OFF finds the part awake. -/
theorem supplied (h : QuietSound s) (hs : s.supply.state ≠ .off) : Awake s :=
  h.toAwake (fun hi => hs (h.off (.inl hi))) fun hi => hs (h.off (.inr hi))

theorem railGoodAsserted (h : QuietSound s) : Answers (execRailGoodAsserted s) QuietSound := by
  refine ⟨_, rfl, QuietSound.settle (h.withSupply _ fun ho => ?_)⟩
  simp [ho]

theorem parkTimerExpiry (h : QuietSound s) : Answers (execParkTimerExpiry s) QuietSound := by
  unfold execParkTimerExpiry
  split
  · rename_i hon
    exact ⟨_, rfl, QuietSound.settle (h.withSupply _ fun ho => by simp [ho] at hon)⟩
  · exact .next h

theorem fallTimerExpiry (h : QuietSound s) : Answers (execFallTimerExpiry s) QuietSound := by
  have raised (hs : s.supply.state ≠ .off) (v : Supply) : QuietSound (s.withSupply v).raiseOnDemand := by
    obtain ⟨u, hu⟩ := (s.withSupply v).raiseOnDemand_eq
    rw [hu]
    exact (((h.supplied hs).withSupply v).withSupply u).quiet
  unfold execFallTimerExpiry
  split
  · simp only
    split
    · rename_i hs
      exact ⟨_, rfl, QuietSound.settle (raised (by simp [hs]) _)⟩
    · rename_i hs
      exact ⟨_, rfl, QuietSound.settle (raised (by simp [hs]) _)⟩
    · exact ⟨_, rfl, QuietSound.settle (h.withSupply _ id)⟩
  · exact .next h

theorem railLost (h : QuietSound s) (hl : LanesSound s) : Answers (execRailLost s) QuietSound := by
  have hs := h.withSupply { s.supply with railGood := false } id
  refine ⟨_, rfl, QuietSound.settle ?_⟩
  split
  · rename_i hon
    refine (Awake.trip (hs.supplied ?_) (fun hc => ?_) _).quiet
    · rw [hon]; decide
    · exact (State.Calm.idle (s := s) hc hl).ofBody rfl
  · exact hs

theorem riseTimeout (h : QuietSound s) (hl : LanesSound s) : Answers (execRiseTimeout s) QuietSound := by
  unfold execRiseTimeout
  split
  · rename_i hr
    exact ⟨_, rfl, QuietSound.settle ((h.supplied (by simp [hr.1])).trip (fun hc => hc.idle hl) _).quiet⟩
  · exact .next h

/-! ## The table -/

/-- A change of results, flags and done queues reaches nothing that INIT or SLEEP rests on. -/
theorem ofBoth (h : QuietSound s) (l : LinkOnly s t) (k : LaneOnly s t) : QuietSound t :=
  h.ofLink l (by rw [k.power]) (fun hi p => by rw [k.txn]; exact (h.init hi).2.2 p) fun hs =>
    ⟨fun p => ⟨(k.txn p).trans (h.sleep_closed hs p), k.consent p⟩, k.temp⟩

theorem setResult (h : QuietSound s) (p : Port) (r : Result) : QuietSound (s.setResult p r) :=
  h.ofBoth (.setResult s p r) (.setResult s p r)

/-- A queue that is empty stays so in a reconsideration; any other finds the part awake and no sweep running. -/
theorem reconsider (h : QuietSound s) : QuietSound s.reconsider := by
  by_cases hq : s.queue = []
  · rwa [State.reconsider_empty s hq]
  · have ha : Awake s := h.toAwake (fun hi => hq (h.calm (.inl hi)).2.1) fun hs => hq (h.calm (.inr (.inl hs))).2.1
    have hg : s.power.geometrySweep = false := by
      by_contra hc
      exact hq (h.calm (.inr (.inr (by simpa using hc)))).2.1
    exact (ha.ofPower hg s.reconsider_power).quiet

theorem sweepQueue (h : QuietSound s) (hs : s.power.state ≠ .sleep) : QuietSound s.sweepQueue := by
  refine foldl_keeps QuietSound _ (fun t _ ht => ht.ofBoth (.appendDone t _ _) (.appendDone t _ _)) _ _ ?_
  refine ⟨fun hr => ?_, h.init, fun hc => absurd hc hs⟩
  obtain ⟨hl, hq, hst, hz⟩ := h.sweep hr
  exact ⟨hl, by rw [State.withQueue_queue, hq]; rfl, hst, hz⟩

/-- A validation runs out of SLEEP alone (R162, R165). -/
theorem validationEnd (h : QuietSound s) : Answers (execValidationEnd s) QuietSound := by
  unfold execValidationEnd
  split
  · rename_i owner hphase
    have hs : s.power.state ≠ .sleep := fun hs => h.sleep_notLoading hs _ _ hphase
    have htable (v : TableUnit) : QuietSound (s.withTable v) := ⟨h.sweep, h.init, fun hc => absurd hc hs⟩
    split
    · have hraised (v : TableUnit) : QuietSound (((s.withTable v).setResult owner .ok).raiseBoth .tableChanged) :=
        ((htable v).setResult owner .ok).ofBoth (.raiseBoth _ _) (.raiseBoth _ _)
      have awake (v : TableUnit) : (((s.withTable v).setResult owner .ok).raiseBoth .tableChanged).power.state ≠ .sleep := by
        rw [State.raiseBoth_power, State.setResult_power]; exact hs
      refine ⟨_, rfl, QuietSound.settle (reconsider (sweepQueue ?_ (awake _)))⟩
      exact ⟨(hraised _).sweep, (hraised _).init, fun hc => absurd hc (awake _)⟩
    · exact ⟨_, rfl, QuietSound.settle ((htable _).setResult owner _)⟩
  · exact .next h

/-! ## Zones and readback -/

theorem zoneLapse (h : QuietSound s) (z : Fin 4) : Answers (execZoneLapse z s) QuietSound := by
  unfold execZoneLapse
  split
  · rename_i zone hz
    have notCalm (hc : s.Calm) : False := by
      have := (State.noZone_iff s).1 hc.2.2.2 z
      simp [hz] at this
    have ha : Awake s := h.toAwake (fun hi => notCalm (h.calm (.inl hi))) fun hs => notCalm (h.calm (.inr (.inl hs)))
    have hg : s.power.geometrySweep = false := by
      by_contra hc
      exact notCalm (h.calm (.inr (.inr (by simpa using hc))))
    refine ⟨_, rfl, QuietSound.settle (ha.leaveDoze.ofPower ((LinkOnly.leaveDoze s).sweep.trans hg) ?_).quiet⟩
    rw [State.reconsider_power, State.raise_power, State.setZone_power]
  · exact .next h

theorem readbackLevelRead (h : QuietSound s) (p : Port) : Answers (execReadbackLevelRead p s) QuietSound := by
  have same : Answers (.next s) QuietSound := .next h
  unfold execReadbackLevelRead
  split
  · rename_i htxn _
    have ha : Awake s := h.awake (p := p) (by simp [htxn]) (by simp [htxn])
    split
    · split
      · have hg : Awake (s.withLastGrant (requesterOf p)) :=
          ha.congr rfl fun hc => hc.congr (fun _ => rfl) rfl (fun p => by simp) fun _ => rfl
        exact ⟨_, rfl, QuietSound.settle (hg.mapPort p _ (by rfl)).quiet⟩
      · exact same
    · exact same
  · exact same

theorem pixelDataByte (h : QuietSound s) (p : Port) (b : Byte) : Answers (execPixelDataByte p b s) QuietSound := by
  unfold execPixelDataByte
  split
  · rename_i htxn
    have ha : Awake s := h.awake (p := p) (by simp [htxn]) (by simp [htxn])
    refine ⟨_, rfl, QuietSound.settle ?_⟩
    split
    · rename_i hready
      refine (ha.ofPower (State.ready_sweep hready) ?_).quiet
      exact foldl_keeps (fun t : State => t.power = s.power) _
        (fun t v ht => (t.placePixel_power p v).trans ht) _ _ (by simp [State.sendResponseByte])
    · exact (ha.discardPixelByte p).quiet
  · exact ⟨_, rfl, h.clockUntaken p⟩

/-! ## Engines, sweeps and power-on -/

theorem engineEvent (h : QuietSound s) (hl : LanesSound s) {i : Instr} (hi : isEngineEvent i = true) :
    Answers (exec i s) QuietSound := by
  by_cases hr : s.power.state = .init ∨ s.power.state = .sleep ∨ s.power.geometrySweep = true
  · have hc := h.calm hr
    exact ⟨s, exec_engineEvent_idle hi hc (hc.idle hl), h⟩
  · simp only [not_or] at hr
    obtain ⟨h1, h2, h3⟩ := hr
    refine (exec_engineEvent_power hi).imp fun t ht => ?_
    rcases ht with rfl | ⟨u, hu, rfl⟩
    · exact h
    · exact QuietSound.settle ((h.toAwake h1 h2).ofPower (by simpa using h3) hu).quiet

/-- The end of a geometry sweep finds the part awake, and a held SET_GEOMETRY finds it calm (R61, R67, R68). -/
theorem geometrySweepEnd (h : QuietSound s) (first : ∀ p i, Held.command i ∉ (s.port p).held.tail) :
    Answers (execGeometrySweepEnd s) QuietSound := by
  unfold execGeometrySweepEnd
  split
  · rename_i hg
    refine ⟨_, rfl, QuietSound.settle (Awake.quiet ?_)⟩
    refine State.sweepEnd_keeps Awake (fun t p ht => ht.mapPort p _ (by rfl)) (fun t i ht hs => ht.effect hs i)
      (fun t p x hx ht => ht.takeHeld p x hx) first ⟨fun hi => ?_, fun hs => ?_, fun hc => by cases hc⟩
    · exact absurd (hg.symm.trans (h.init hi).1) (by simp)
    · exact absurd (hg.symm.trans (h.sleep_sweep hs)) (by simp)
  · exact .next h

/-- Power-on holds the part in INIT, with every transaction under way abandoned (R161). -/
theorem powerOn (r g : Bool) {ta tb : Transaction} (ha : ta = .closed ∨ ta = .discarded)
    (hb : tb = .closed ∨ tb = .discarded) (pend : List Instr) : QuietSound (State.powerOn r g ta tb pend) :=
  have calm : (State.powerOn r g ta tb pend).Calm := by
    obtain ⟨lanes, -, -, zones⟩ := QuietSound.reset.sweep (.inl rfl)
    exact ⟨lanes, rfl, fun p => by cases p <;> rfl, zones⟩
  ⟨fun _ => calm, fun _ => ⟨rfl, rfl, fun p => (by cases p; exacts [ha, hb])⟩, fun hs => by cases hs⟩

/-- Every command that a sound state takes finds the part at rest as it must be, and leaves it so. -/
theorem exec (h : Sound s) (i : Instr) : Answers (Machine.exec i s) QuietSound := by
  have hq := h.quiet
  by_cases he : isEngineEvent i = true
  · exact hq.engineEvent h.lanes he
  cases hr : requestOf i with
  | some r => exact ⟨_, exec_request (i := i) hr s, (hq.transact _ _ _ i).settle⟩
  | none =>
  cases i with
  | powerOnReset r => exact ⟨_, rfl, powerOn _ _ (Transaction.abandoned_closed _) (Transaction.abandoned_closed _) _⟩
  | initSweepEnd => exact hq.initSweepEnd
  | selectFall p => exact ⟨_, rfl, hq.opened p⟩
  | wakingEnd => exact hq.wakingEnd
  | unknownCommand p taken => exact hq.unknownCommand p taken
  | writePixels p ph =>
    cases ph with
    | code => exact ⟨_, rfl, hq.takeCode p _ fun _ => rfl⟩
    | rise => exact ⟨_, rfl, (hq.endWrite p).settle⟩
  | writeContinue p ph =>
    cases ph with
    | code => exact ⟨_, rfl, hq.takeCode p _ fun _ => rfl⟩
    | rise => exact ⟨_, rfl, (hq.endWrite p).settle⟩
  | readPixels p ph =>
    cases ph with
    | code => exact ⟨_, rfl, hq.takeCode p _ fun _ => rfl⟩
    | rise => exact ⟨_, rfl, (hq.endRead p).settle⟩
  | pixelDataByte p b => exact hq.pixelDataByte p b
  | pixelByteDiscarded p => exact hq.pixelByteDiscarded p
  | readbackLevelRead p => exact hq.readbackLevelRead p
  | readbackByte p => exact hq.readbackByte p
  | validationEnd => exact hq.validationEnd
  | geometrySweepEnd => exact hq.geometrySweepEnd h.queues.heldFirst
  | railGoodAsserted => exact hq.railGoodAsserted
  | railLost => exact hq.railLost h.lanes
  | riseTimeout => exact hq.riseTimeout h.lanes
  | parkTimerExpiry => exact hq.parkTimerExpiry
  | fallTimerExpiry => exact hq.fallTimerExpiry
  | staleTimerExpiry => exact hq.staleTimerExpiry
  | zoneLapse z => exact hq.zoneLapse z
  | dozeTimerExpiry => exact hq.dozeTimerExpiry
  | resetNRise => exact hq.resetNRise
  | discardedTransactionRise p =>
    simp only [Machine.exec, execDiscardedTransactionRise]
    split
    · exact ⟨_, rfl, (hq.closeDiscarded p 0).settle⟩
    · exact .next hq
  | _ => simp [isEngineEvent, requestOf] at he hr

end QuietSound

/-- Settles O59: what holds a place of the panel was tested against the geometry in force when it came to hold it, and the
geometry changes only while nothing does; tags are tested when a request enters a stream and go with it to its lane. -/
theorem stepKeepsPlaces : Obligations.StepKeepsPlaces :=
  have placed (s t : State) (h : Sound s) (hs : step s = .next t) : Placed t :=
    h.step (fun _ hu => hu.placed) (fun _ i hu => Placed.exec hu i) hs
  ⟨fun s t h hs => (placed s t h hs).tags, fun s t h hs => (placed s t h hs).geometry,
    fun _ _ h hs => h.step (fun _ hu => hu.quiet) (fun _ i hu => QuietSound.exec hu i) hs⟩

end Sys2Proof.Machine
end

section
/-! The Temperature Unit and the table (R24, R39, R43 to R45): O58. Only REPORT_TEMPERATURE, the settings, the loading
protocol, the resets, the stale timer and SLEEP reach them; every other event leaves both as they were.
-/

namespace Sys2Proof.Machine

/-! ## What an event may leave -/

/-- What `TemperatureSound` reads of the state: the table and the Temperature Unit. -/
def State.thermal (s : State) : TableUnit × TempUnit := (s.table, s.temp)

@[simp] theorem State.withGeometry_thermal (s : State) (w h : Nat) : (s.withGeometry w h).thermal = s.thermal := rfl
@[simp] theorem State.withImage_thermal (s : State) (v : Store Level) : (s.withImage v).thermal = s.thermal := rfl
@[simp] theorem State.withPixels_thermal (s : State) (v : Store PixelRecord) : (s.withPixels v).thermal = s.thermal := rfl
@[simp] theorem State.withLastGrant_thermal (s : State) (v : Requester) : (s.withLastGrant v).thermal = s.thermal := rfl
@[simp] theorem State.withQueue_thermal (s : State) (v : List Request) : (s.withQueue v).thermal = s.thermal := rfl
@[simp] theorem State.withZones_thermal (s : State) (v : Vector (Option Zone) 4) : (s.withZones v).thermal = s.thermal := rfl
@[simp] theorem State.withZoneDuration_thermal (s : State) (v : Nat) : (s.withZoneDuration v).thermal = s.thermal := rfl
@[simp] theorem State.withLimits_thermal (s : State) (r w : Nat) : (s.withLimits r w).thermal = s.thermal := rfl
@[simp] theorem State.withScan_thermal (s : State) (v : Scanner) : (s.withScan v).thermal = s.thermal := rfl
@[simp] theorem State.withSupply_thermal (s : State) (v : Supply) : (s.withSupply v).thermal = s.thermal := rfl
@[simp] theorem State.withPower_thermal (s : State) (v : PowerUnit) : (s.withPower v).thermal = s.thermal := rfl
@[simp] theorem State.setZone_thermal (s : State) (z : Fin 4) (v : Option Zone) : (s.setZone z v).thermal = s.thermal := rfl
@[simp] theorem State.withTable_thermal (s : State) (v : TableUnit) : (s.withTable v).thermal = (v, s.temp) := rfl
@[simp] theorem State.withTemp_thermal (s : State) (v : TempUnit) : (s.withTemp v).thermal = (s.table, v) := rfl

@[simp] theorem State.setPort_thermal (s : State) (p : Port) (v : PortState) : (s.setPort p v).thermal = s.thermal := by
  cases p <;> rfl

@[simp] theorem State.mapPort_thermal (s : State) (p : Port) (f : PortState → PortState) :
    (s.mapPort p f).thermal = s.thermal := s.setPort_thermal p _

theorem LaneOnly.thermal {s t : State} (h : LaneOnly s t) : t.thermal = s.thermal := by
  rw [State.thermal, h.table, h.temp]; rfl

@[simp] theorem State.setResult_thermal (s : State) (p : Port) (r : Result) : (s.setResult p r).thermal = s.thermal :=
  (LaneOnly.setResult s p r).thermal

@[simp] theorem State.raise_thermal (s : State) (p : Port) (f : Flag) : (s.raise p f).thermal = s.thermal :=
  (LaneOnly.raise s p f).thermal

@[simp] theorem State.raiseBoth_thermal (s : State) (f : Flag) : (s.raiseBoth f).thermal = s.thermal :=
  (LaneOnly.raiseBoth s f).thermal

@[simp] theorem State.reconsider_thermal (s : State) : s.reconsider.thermal = s.thermal := (LaneOnly.reconsider s).thermal

@[simp] theorem State.answer_thermal (s : State) (p : Port) (data : List Byte) (own : PortState → PortState) :
    (s.answer p data own).thermal = s.thermal := by simp [State.answer]

@[simp] theorem State.endOwned_thermal (s : State) (mine : Port → Bool) (q : List Request) :
    (s.endOwned mine q).thermal = s.thermal := by
  obtain ⟨v, hv, -⟩ := s.endOwned_eq mine q
  rw [hv, State.withZones_thermal, State.withQueue_thermal, (LaneOnly.endLanes s mine).thermal]

@[simp] theorem State.endOwned_temp (s : State) (mine : Port → Bool) (q : List Request) :
    (s.endOwned mine q).temp = s.temp := (Prod.mk.inj (s.endOwned_thermal mine q)).2

@[simp] theorem State.endOwned_table (s : State) (mine : Port → Bool) (q : List Request) :
    (s.endOwned mine q).table = s.table := (Prod.mk.inj (s.endOwned_thermal mine q)).1

/-! ## Events of the link -/

@[simp] theorem State.endResetWait_thermal (s : State) : s.endResetWait.thermal = s.thermal := by
  simp [State.thermal]

@[simp] theorem State.noteReady_thermal (s : State) (p : Port) : (s.noteReady p).thermal = s.thermal := by
  simp [State.thermal]

@[simp] theorem State.closeTransaction_thermal (s : State) (p : Port) (n : Nat) :
    (s.closeTransaction p n).thermal = s.thermal := s.mapPort_thermal p _

@[simp] theorem State.closeStream_thermal (s : State) (p : Port) : (s.closeStream p).thermal = s.thermal :=
  s.mapPort_thermal p _

@[simp] theorem State.hold_thermal (s : State) (p : Port) (x : Held) : (s.hold p x).thermal = s.thermal :=
  s.mapPort_thermal p _

@[simp] theorem State.clockZeros_thermal (s : State) (p : Port) (n : Nat) : (s.clockZeros p n).thermal = s.thermal :=
  s.mapPort_thermal p _

@[simp] theorem State.sendResponseByte_thermal (s : State) (p : Port) : (s.sendResponseByte p).thermal = s.thermal :=
  s.mapPort_thermal p _

@[simp] theorem State.clockUntaken_thermal (s : State) (p : Port) : (s.clockUntaken p).thermal = s.thermal := by
  rcases s.clockUntaken_eq p with h | ⟨-, h⟩ | ⟨_, -, -, h⟩ <;> simp [h]

@[simp] theorem State.closeDiscarded_thermal (s : State) (p : Port) (n : Nat) :
    (s.closeDiscarded p n).thermal = s.thermal := by simp [State.closeDiscarded]

@[simp] theorem State.refuseFrame_thermal (s : State) (p : Port) (fr : Frame) :
    (s.refuseFrame p fr).thermal = s.thermal := by
  cases fr <;> simp [State.refuseFrame]

@[simp] theorem State.refuseUntaken_thermal (s : State) (p : Port) (n : Nat) :
    (s.refuseUntaken p n).thermal = s.thermal := by
  rw [State.refuseUntaken_eq]
  simp only
  split <;> simp

@[simp] theorem State.riseWithoutCode_thermal (s : State) (p : Port) : (s.riseWithoutCode p).thermal = s.thermal := by
  unfold State.riseWithoutCode
  split <;> simp

@[simp] theorem State.endWrite_thermal (s : State) (p : Port) : (s.endWrite p).thermal = s.thermal := by
  unfold State.endWrite
  split
  · simp only
    split <;> simp
  · simp

@[simp] theorem State.endRead_thermal (s : State) (p : Port) : (s.endRead p).thermal = s.thermal := by
  unfold State.endRead
  split <;> simp

@[simp] theorem State.discardPixelByte_thermal (s : State) (p : Port) : (s.discardPixelByte p).thermal = s.thermal := by
  simp [State.discardPixelByte]

@[simp] theorem State.placePixel_thermal (s : State) (p : Port) (v : Level) :
    (State.placePixel p s v).thermal = s.thermal := by
  unfold State.placePixel
  split
  · simp [State.pushEntry, State.mapContext]
  · simp [State.ignorePixel]

@[simp] theorem State.takePixelByte_thermal (s : State) (p : Port) (b : Byte) :
    (s.takePixelByte p b).thermal = s.thermal :=
  foldl_keeps (fun t : State => t.thermal = s.thermal) _ (fun t v ht => (t.placePixel_thermal p v).trans ht) _ _ (by simp)

@[simp] theorem State.leaveDoze_thermal (s : State) : s.leaveDoze.thermal = s.thermal := by
  unfold State.leaveDoze
  split <;> rfl

/-! ## Engines and supply -/

@[simp] theorem State.raiseOnDemand_thermal (s : State) : s.raiseOnDemand.thermal = s.thermal := by
  obtain ⟨v, hv⟩ := s.raiseOnDemand_eq
  rw [hv, State.withSupply_thermal]

@[simp] theorem State.drive_thermal (s : State) (visits : Pos → Bool) : (s.drive visits).thermal = s.thermal := by
  obtain ⟨lanes, hd, -⟩ := s.drive_eq visits
  rw [hd]; rfl

theorem State.finishVisit_thermal (s : State) (w : Survey) (x : Pos) (v : Level) :
    (s.finishVisit w x v).thermal = s.thermal := by
  refine (LaneOnly.withSurvey _ _).thermal.trans ?_
  unfold State.visitRecord
  simp only
  split
  · exact (LaneOnly.mapLane s _ _).thermal
  · exact (LaneOnly.mapLane s _ _).thermal
  · exact (LaneOnly.mapLane s _ _).thermal
  · rfl
  · rw [State.setPixel, State.withPixels_thermal, (LaneOnly.mapLane s _ _).thermal]

/-! ## Bounds -/

theorem clampInt_bounds (lo hi v : Int) (h : lo ≤ hi) : lo ≤ clampInt lo hi v ∧ clampInt lo hi v ≤ hi := by
  unfold clampInt
  split
  · omega
  · split <;> omega

theorem clampNat_bounds (lo hi v : Nat) (h : lo ≤ hi) : lo ≤ clampNat lo hi v ∧ clampNat lo hi v ≤ hi := by
  unfold clampNat
  split
  · omega
  · split <;> omega

/-- A count of boundaries names a band of the table (R41). -/
theorem Table.count_le (t : Table) (x : Int) : t.count x ≤ t.bands.tail.length := by
  have := List.countP_le_length (p := fun l => decide (l ≤ x)) (l := t.boundaries)
  simpa [Table.count, Table.boundaries] using this

namespace TemperatureSound

variable {s t : State}

/-- Nothing but the table and the Temperature Unit is read. -/
theorem congr (h : TemperatureSound s) (thermal : t.thermal = s.thermal) : TemperatureSound t := by
  obtain ⟨htable, htemp⟩ := Prod.mk.inj thermal
  obtain ⟨h1, h2, h3, h4, h5, h6, h7, h8⟩ := h
  rw [← htable] at h1 h4 h5
  rw [← htemp] at h2 h3 h4 h5 h6 h7 h8
  exact ⟨h1, h2, h3, h4, h5, h6, h7, h8⟩

/-- The stale timer may stop at any time. -/
theorem stopTimer (h : TemperatureSound s) : TemperatureSound (s.withTemp { s.temp with staleTimer := none }) :=
  ⟨h.table, h.absent, h.range, h.noBand, h.band, fun ht => by simp at ht, h.hysteresis, h.duration⟩

/-- A FRESH temperature that turns STALE keeps its band (R44). -/
theorem goStale (h : TemperatureSound s) : TemperatureSound s.goStale := by
  unfold State.goStale
  split
  · rename_i hf
    have present : s.temp.freshness ≠ .absent := by simp [hf]
    refine congr (s := s.withTemp { s.temp with freshness := .stale, staleTimer := none }) ?_ (State.raiseBoth_thermal _ _)
    refine ⟨h.table, ?_, h.range, fun hn => h.noBand (hn.imp_right fun hc => by cases hc), fun t ht _ => h.band t ht present,
      fun ht => by simp at ht, h.hysteresis, h.duration⟩
    have := h.absent
    simp_all
  · exact h

theorem enterSleep (h : TemperatureSound s) : TemperatureSound s.enterSleep :=
  congr (s := s.withTemp { s.temp with staleTimer := none }) h.stopTimer rfl

theorem judgePower (h : TemperatureSound s) : TemperatureSound s.judgePower := by
  unfold State.judgePower
  split
  · split
    · split
      · exact h.enterSleep
      · split
        · exact h.congr rfl
        · exact h
    · exact h.congr rfl
  · split
    · exact h.enterSleep
    · exact h
  · exact h

theorem settle (h : TemperatureSound s) : TemperatureSound s.settle := judgePower (h.congr (by simp))

theorem wake (h : TemperatureSound s) (p : Port) : TemperatureSound (s.wake p) :=
  goStale (h.congr (by simp [State.mapPorts]))

theorem opened (h : TemperatureSound s) (p : Port) : TemperatureSound (s.opened p) := by
  unfold State.opened
  split
  · refine settle ?_
    have hd : TemperatureSound (s.mapPort p fun q => { q with dataOut := [], outCount := 0, outMark := 0 }) :=
      h.congr (s.mapPort_thermal p _)
    unfold State.selectFalls
    simp only
    split
    · exact hd.congr (State.mapPort_thermal _ p _)
    · exact hd.wake p
    · exact hd.congr (State.mapPort_thermal _ p _)
  · exact h

/-! ## Effects that reach the table or the Temperature Unit -/

/-- The band after a report is a band of the VALID table (R42, R43). -/
theorem bandAfterReport (h : TemperatureSound s) (x : Int) {t : Table} (ht : s.table.table = some t) :
    ∃ b, s.bandAfterReport x = some b ∧ b ≤ t.bands.tail.length := by
  have hv : s.tableValid = true := by simpa [State.tableValid] using h.table.2 (by simp [ht])
  unfold State.bandAfterReport
  rw [hv, ht]
  simp only
  split
  · rename_i b hf hb
    obtain ⟨c, hc, hle⟩ := h.band t ht (by simp [hf])
    obtain rfl : b = c := Option.some.inj (hb.symm.trans hc)
    refine ⟨_, rfl, ?_⟩
    unfold bandWithHysteresis
    simp only
    split
    · exact t.count_le _
    · split
      · exact t.count_le _
      · exact hle
  · exact ⟨_, rfl, t.count_le x⟩

/-- REPORT_TEMPERATURE (R40 to R44). -/
theorem report (h : TemperatureSound s) (p : Port) (req : List Byte) :
    TemperatureSound (effectReportTemperature p req s) := by
  refine congr (s := s.withTemp { s.temp with
    freshness := .fresh, staleTimer := some s.temp.staleDuration
    effective := some (clampInt Config.minTemperature Config.maxTemperature (req.head?.getD 0).toInt)
    band := s.bandAfterReport (clampInt Config.minTemperature Config.maxTemperature (req.head?.getD 0).toInt) })
    ?_ (State.setResult_thermal _ p _)
  refine ⟨h.table, by simp, fun x hx => ?_, fun hn => ?_, fun t ht _ => h.bandAfterReport _ ht, fun _ => rfl, h.hysteresis,
    h.duration⟩
  · obtain rfl := Option.some.inj hx
    exact clampInt_bounds _ _ _ (by decide)
  · have hv : s.tableValid = false := by
      rcases hn with hn | hn
      · simpa [State.tableValid] using hn
      · cases hn
    simp [State.bandAfterReport, hv]

/-- While the table is not VALID the band is NONE, so the table may be anything that is not VALID (R39, R45). -/
theorem withTable (h : TemperatureSound s) (hs : s.table.phase ≠ .valid) (v : TableUnit) (hv : v.phase ≠ .valid)
    (ht : v.table = s.table.table) : TemperatureSound (s.withTable v) := by
  have none : v.table = none := by
    rw [ht]; simpa using fun hc => hs (h.table.2 hc)
  refine ⟨by simp [none, hv], h.absent, h.range, fun _ => h.noBand (.inl hs), fun t hc => ?_, h.timer, h.hysteresis,
    h.duration⟩
  simp [none] at hc

/-- A table leaves VALID with the band NONE (R45). -/
theorem unload (h : TemperatureSound s) (v : TableUnit) (hv : v.phase ≠ .valid) (ht : v.table = none) :
    TemperatureSound ((s.withTemp { s.temp with band := none }).withTable v) :=
  ⟨by simp [ht, hv], h.absent, h.range, fun _ => rfl, fun t hc => by simp [ht] at hc, h.timer, h.hysteresis, h.duration⟩

theorem tableBegin (h : TemperatureSound s) (p : Port) (req : List Byte) :
    TemperatureSound (effectTableBegin p req s) := by
  have unloaded (hs : s.table.phase ≠ .valid) : s.table.table = none := by
    simpa using fun hc => hs (h.table.2 hc)
  have start (hs : s.table.phase ≠ .valid) : TemperatureSound (s.withTable
      { phase := .loading p false, memory := [], received := 0, table := none }) :=
    h.withTable hs _ (by simp) (unloaded hs).symm
  have refused (r : Result) : TemperatureSound (s.setResult p r) := h.congr (s.setResult_thermal p r)
  unfold effectTableBegin
  simp only
  split
  · exact refused _
  · split
    · rename_i hs
      split
      · exact (start (by simp [hs])).congr (State.setResult_thermal _ p _)
      · exact refused _
    · refine (h.unload { phase := .loading p false, memory := [], received := 0, table := none } (by simp) rfl).congr ?_
      simp [State.raiseBoth_eq]
    · rename_i hs
      exact (start hs).congr (State.setResult_thermal _ p _)

theorem tableData (h : TemperatureSound s) (p : Port) (req : List Byte) :
    TemperatureSound (effectTableData p req s) := by
  unfold effectTableData
  split
  · rename_i hs
    split
    · split
      · exact (h.withTable (by simp [hs]) _ (by simp) (by rfl)).congr (State.setResult_thermal _ p _)
      · exact (h.withTable (by simp [hs]) _ (by simp [hs]) (by rfl)).congr (State.setResult_thermal _ p _)
    · exact h.congr (s.setResult_thermal p _)
  · exact h.congr (s.setResult_thermal p _)

theorem tableEnd (h : TemperatureSound s) (p : Port) (req : List Byte) :
    TemperatureSound (effectTableEnd p req s) := by
  unfold effectTableEnd
  split
  · rename_i hs
    split
    · exact (h.withTable (by simp [hs]) _ (by simp) (by rfl)).congr (State.setResult_thermal _ p _)
    · exact h.congr (s.setResult_thermal p _)
  · exact h.congr (s.setResult_thermal p _)

theorem tableAbort (h : TemperatureSound s) (p : Port) (req : List Byte) :
    TemperatureSound (effectTableAbort p req s) := by
  unfold effectTableAbort
  split
  · rename_i hs
    have ha : TemperatureSound s.abortLoad := h.withTable (by simp [hs]) _ (by simp) (by rfl)
    refine congr ?_ (State.setResult_thermal _ p _)
    split
    · exact ha.congr (State.setResult_thermal _ _ _)
    · exact ha
  · exact h.congr (s.setResult_thermal p _)

/-- A load that a reset cuts short leaves no VALID table (R38). -/
theorem aborted (h : TemperatureSound s) (mine : Port → Bool) :
    TemperatureSound (s.withTable (s.table.aborted mine)) := by
  unfold TableUnit.aborted
  split
  · rename_i hs
    split
    · exact h.withTable (by simp [hs]) _ (by simp) (by rfl)
    · exact h
  · exact h

theorem setLimits (h : TemperatureSound s) (p : Port) (req : List Byte) :
    TemperatureSound (effectSetLimits p req s) := by
  refine congr (s := s.withTemp { s.temp with hysteresis := min (reqByte req 2) 5 }) ?_ (State.setResult_thermal _ p _)
  exact ⟨h.table, h.absent, h.range, h.noBand, h.band, h.timer, Nat.min_le_right _ _, h.duration⟩

theorem setTimers (h : TemperatureSound s) (p : Port) (req : List Byte) :
    TemperatureSound (effectSetTimers p req s) := by
  refine congr (s := s.withTemp { s.temp with staleDuration := clampNat 1 600 (reqWord req 8) }) ?_
    (State.setResult_thermal _ p _)
  exact ⟨h.table, h.absent, h.range, h.noBand, h.band, h.timer, h.hysteresis, clampNat_bounds _ _ _ (by decide)⟩

/-- PORT_RESET ends a load of its port and leaves the Temperature Unit (R38, R179). -/
theorem portReset (h : TemperatureSound s) (p : Port) (req : List Byte) :
    TemperatureSound (effectPortReset p req s) := by
  rw [effectPortReset_eq]
  refine (h.aborted fun q => decide (q = p)).congr ?_
  simp

/-- PART_RESET ends a load and leaves no temperature (R38, R50, R180). -/
theorem partReset (h : TemperatureSound s) (p : Port) (req : List Byte) :
    TemperatureSound (effectPartReset p req s) := by
  have ha := h.aborted fun _ => true
  have hr : TemperatureSound ((s.withTable (s.table.aborted fun _ => true)).withTemp TempUnit.partReset) :=
    ⟨ha.table, by simp [TempUnit.partReset], fun _ hx => absurd hx (by simp [TempUnit.partReset]), fun _ => rfl,
      fun _ _ hc => absurd rfl hc, fun ht => absurd ht (by simp [TempUnit.partReset]),
      Nat.le_of_ble_eq_true rfl, by simp [TempUnit.partReset, Config.defaultStale]⟩
  rw [effectPartReset_eq]
  refine hr.congr ?_
  simp [State.mapPorts, State.resetSettings]

end TemperatureSound

/-! ## Every effect -/

/-- The commands that reach the table or the Temperature Unit. -/
def reachesThermal : Instr → Bool
  | .reportTemperature _ _ | .tableBegin _ _ | .tableData _ _ | .tableEnd _ _ | .tableAbort _ _ | .setLimits _ _
  | .setTimers _ _ | .portReset _ _ | .partReset _ _ => true
  | _ => false

theorem effectWithdraw_thermal (p : Port) (req : List Byte) (s : State) :
    (effectWithdraw p req s).thermal = s.thermal := by
  unfold effectWithdraw
  simp only
  split
  · simp
  · split
    · exact ((LaneOnly.appendDone _ p _).trans (.setResult _ p _)).thermal.trans (s.mapPort_thermal p _)
    · split
      · exact ((((LaneOnly.withQueue s _).trans (.appendDone _ p _)).trans (.reconsider _)).trans
          (.setResult _ p _)).thermal
      · split
        · exact (LaneOnly.withdrawLane s p _).thermal
        · simp

theorem effectOf_thermal (i : Instr) (s : State) (hi : reachesThermal i = false) :
    (effectOf i s).thermal = s.thermal := by
  cases i with
  | setWindow p r => simp only [effectOf, effectSetWindow, State.mapContext]; split <;> simp
  | setFormat p r => simp only [effectOf, effectSetFormat, State.mapContext]; split <;> simp
  | setOrientation p r => simp only [effectOf, effectSetOrientation, State.mapContext]; split <;> simp
  | fillWindow p r =>
    simp only [effectOf, effectFillWindow, State.pushEntry]
    split
    · split <;> simp
    · simp
  | submitUpdate p r =>
    simp only [effectOf, effectSubmitUpdate, State.pushEntry]
    split
    · simp
    · split
      · simp
      · split
        · simp
        · split <;> simp
  | withdraw p r => exact effectWithdraw_thermal p r s
  | reserveZone p r =>
    simp only [effectOf, effectReserveZone]
    split
    · simp
    · split
      · simp
      · split
        · simp
        · exact State.setResult_thermal _ p _
  | releaseZone p r =>
    simp only [effectOf, effectReleaseZone]
    split
    · simp
    · split
      · simp
      · split
        · exact (State.setResult_thermal _ p _).trans (State.reconsider_thermal _)
        · simp
  | getTableInfo p r => simp [effectOf, effectGetTableInfo]
  | setGeometry p r =>
    simp only [effectOf, effectSetGeometry]
    split
    · simp
    · split
      · simp
      · exact State.setResult_thermal _ p _
  | setFrameMark p r => exact State.setResult_thermal _ p _
  | getEvents p r => simp [effectOf, effectGetEvents]
  | setEventEnable p r => simp only [effectOf, effectSetEventEnable]; split <;> simp
  | getDone p r => simp only [effectOf, effectGetDone]; split <;> simp
  | getResult p r => simp [effectOf, effectGetResult]
  | getStatus p r => simp [effectOf, effectGetStatus]
  | getScan p r => simp [effectOf, effectGetScan]
  | getPixel p r => simp only [effectOf, effectGetPixel]; split <;> simp
  | getId p r => simp [effectOf, effectGetId]
  | sleep p r => simp [effectOf, effectSleep]
  | reportTemperature p r => simp [reachesThermal] at hi
  | tableBegin p r => simp [reachesThermal] at hi
  | tableData p r => simp [reachesThermal] at hi
  | tableEnd p r => simp [reachesThermal] at hi
  | tableAbort p r => simp [reachesThermal] at hi
  | setLimits p r => simp [reachesThermal] at hi
  | setTimers p r => simp [reachesThermal] at hi
  | portReset p r => simp [reachesThermal] at hi
  | partReset p r => simp [reachesThermal] at hi
  | _ => rfl

namespace TemperatureSound

variable {s t : State}

theorem effect (h : TemperatureSound s) (i : Instr) : TemperatureSound (effectOf i s) := by
  by_cases hi : reachesThermal i = false
  · exact h.congr (effectOf_thermal i s hi)
  · cases i with
    | reportTemperature p r => exact h.report p r
    | tableBegin p r => exact h.tableBegin p r
    | tableData p r => exact h.tableData p r
    | tableEnd p r => exact h.tableEnd p r
    | tableAbort p r => exact h.tableAbort p r
    | setLimits p r => exact h.setLimits p r
    | setTimers p r => exact h.setTimers p r
    | portReset p r => exact h.portReset p r
    | partReset p r => exact h.partReset p r
    | _ => exact absurd rfl hi

theorem transact (h : TemperatureSound s) (p : Port) (fr : Frame) (req : List Byte) (i : Instr) :
    TemperatureSound (s.transact p fr req i (effectOf i)) := by
  have ho := h.opened p
  have hc : TemperatureSound ((s.opened p).closeTransaction p (req.length + 1)) := ho.congr (by simp)
  unfold State.transact
  simp only
  split
  · split
    · exact hc.congr (by simp)
    · split
      · exact hc.congr (by simp)
      · exact hc.effect i
  · exact ho.congr (by simp)
  · exact ho.congr (by simp)
  · exact ho

theorem takeCode (h : TemperatureSound s) (p : Port) (f : PortState → PortState) : TemperatureSound (s.takeCode p f) := by
  have ho := h.opened p
  unfold State.takeCode
  simp only
  split
  · split
    · exact settle (ho.congr (by simp))
    · exact ho.congr (by simp)
  · exact ho.congr (by simp)

theorem unknownCommand (h : TemperatureSound s) (p : Port) (taken : List Byte) :
    Answers (execUnknownCommand p taken s) TemperatureSound := by
  have ho := h.opened p
  unfold execUnknownCommand
  split
  · refine ⟨_, rfl, ?_⟩
    split
    · refine settle ?_
      split
      · exact ho.congr (by simp)
      · exact ho.congr (by simp)
    · exact settle (ho.congr (by simp))
    · exact ho
  · exact .next h

theorem readbackByte (h : TemperatureSound s) (p : Port) : Answers (execReadbackByte p s) TemperatureSound := by
  unfold execReadbackByte
  split
  · split
    · refine ⟨_, rfl, settle ?_⟩
      split
      · exact h.congr (by simp)
      · exact h.congr (by simp)
    · exact ⟨_, rfl, h.congr (by simp)⟩
  · refine ⟨_, rfl, ?_⟩
    split
    · exact h.congr (by simp [State.takeAhead])
    · exact h.congr (by simp)
  · exact ⟨_, rfl, h.congr (by simp)⟩

/-- A table that enters VALID reselects the band from the last report (R45). -/
theorem validationEnd (h : TemperatureSound s) : Answers (execValidationEnd s) TemperatureSound := by
  unfold execValidationEnd
  split
  · rename_i owner hs
    split
    · rename_i t _
      have valid : TemperatureSound ((s.withTable { s.table with phase := .valid, table := some t }).withTemp
          { s.temp with band := s.temp.effective.map t.count }) := by
        refine ⟨by simp, h.absent, h.range, fun hn => ?_, fun u hu hf => ?_, h.timer, h.hysteresis, h.duration⟩
        · have ha := h.absent.1 (hn.resolve_left (by simp))
          simp [ha]
        · obtain rfl := Option.some.inj hu
          obtain ⟨x, hx⟩ := Option.ne_none_iff_exists'.1 (mt h.absent.2 hf)
          exact ⟨t.count x, by simp [hx], t.count_le x⟩
      refine ⟨_, rfl, settle (valid.congr ?_)⟩
      unfold State.enterValid
      refine ((LaneOnly.sweepQueue _).trans (.reconsider _)).thermal.trans ?_
      have hraise := ((LaneOnly.setResult (s.withTable { s.table with phase := .valid, table := some t }) owner .ok).trans
        (.raiseBoth _ .tableChanged))
      refine Prod.ext hraise.table ?_
      simp only [State.thermal, State.withTemp_temp, hraise.temp, State.withTable_temp]
    · exact ⟨_, rfl, settle ((h.withTable (by simp [hs]) _ (by simp) (by rfl)).congr (State.setResult_thermal _ _ _))⟩
  · exact .next h

theorem takeHeld (h : TemperatureSound s) (p : Port) (x : Held) : TemperatureSound (State.takeHeld p s x) := by
  cases x with
  | command i => exact h.effect i
  | writeEnd r => exact h.congr (s.setResult_thermal p r)
  | untaken => exact h.congr (by simp [State.takeHeld])

theorem applyHeld (h : TemperatureSound s) (p : Port) : TemperatureSound (s.applyHeld p) := by
  unfold State.applyHeld
  split
  · exact h
  · exact foldl_keeps TemperatureSound _ (fun t x ht => ht.takeHeld p x) _ _ (h.congr (s.mapPort_thermal p _))

theorem geometrySweepEnd (h : TemperatureSound s) : Answers (execGeometrySweepEnd s) TemperatureSound := by
  unfold execGeometrySweepEnd
  split
  · have hg : TemperatureSound s.sweptGeometry := h.congr (by simp [State.sweptGeometry, State.mapPorts])
    exact ⟨_, rfl, settle ((hg.applyHeld .a).applyHeld .b)⟩
  · exact .next h

/-- A trip ends lanes and moves the scan and the supply alone (R153, R156). -/
theorem trip (h : TemperatureSound s) (cause : TripCause) : TemperatureSound (s.trip cause) := by
  have hf : TemperatureSound ((s.withSupply (s.supply.trip cause)).faultRunning) :=
    h.congr ((LaneOnly.faultRunning _).thermal.trans (State.withSupply_thermal _ _))
  have hr : TemperatureSound (((s.withSupply (s.supply.trip cause)).faultRunning.withScan
      (s.withSupply (s.supply.trip cause)).faultRunning.scan.toIdle).raiseBoth .supplyFault) := hf.congr (by simp)
  unfold State.trip
  simp only
  refine congr ?_ (LaneOnly.startRetire _).thermal
  split
  · exact hr.congr ((LaneOnly.raiseBoth _ _).trans (.haltLanes _)).thermal
  · exact hr

/-- The engines read the table and the temperature, and leave both. -/
theorem engineEvent (h : TemperatureSound s) {i : Instr} (hi : isEngineEvent i = true) :
    Answers (exec i s) TemperatureSound := by
  have same : Answers (.next s) TemperatureSound := .next h
  have settled {u : State} (hu : u.thermal = s.thermal) : Answers (.next u.settle) TemperatureSound :=
    .next (settle (h.congr hu))
  cases i with
  | drainPixelEntry p =>
    simp only [Machine.exec, execDrainPixelEntry]
    split
    · split
      · exact settled (State.mapPort_thermal _ p _)
      · exact same
    · exact same
  | drainFillPixel p =>
    simp only [Machine.exec, execDrainFillPixel]
    split
    · split
      · exact settled (State.mapPort_thermal _ p _)
      · exact same
    · exact same
  | drainSubmitEntry p =>
    simp only [Machine.exec, execDrainSubmitEntry]
    split
    · exact settled ((LaneOnly.enterQueue _ _).thermal.trans (s.mapPort_thermal p _))
    · exact same
  | surveyStart =>
    simp only [Machine.exec, execSurveyStart]
    split
    · exact settled (((LaneOnly.mapLane s _ _).trans (.withSurveyList _ _)).trans (.withSurvey _ _)).thermal
    · exact same
  | surveyVisit part =>
    simp only [Machine.exec, execSurveyVisit]
    split
    · split
      · split
        · exact settled (s.finishVisit_thermal _ _ _)
        · exact same
      · split
        · split
          · exact settled (State.finishVisit_thermal _ _ _ _)
          · exact settled rfl
        · exact same
      · exact same
    · exact same
  | surveyEnd =>
    have hc := LaneOnly.closeSurvey s
    simp only [Machine.exec, execSurveyEnd]
    split
    · split
      · split
        · exact settled (hc.trans (((LaneOnly.reportLane _ _ _).trans (.setLane _ _ _)).trans (.reconsider _))).thermal
        · split
          · exact settled (hc.trans ((LaneOnly.joinRetire _ _ _ _).trans (.startRetire _))).thermal
          · exact settled ((State.raiseOnDemand_thermal _).trans
              (hc.trans ((LaneOnly.mapLane _ _ _).trans (.withArmingList _ _))).thermal)
      · exact same
    · exact same
  | scanStart =>
    simp only [Machine.exec, execScanStart]
    split
    · split
      · exact settled (LaneOnly.admitLane s _).thermal
      · exact same
    · exact same
  | frameRow n =>
    simp only [Machine.exec, execFrameRow]
    split
    · refine settled ?_
      rw [State.withScan_thermal, State.drive_thermal]
    · exact same
  | frameBoundary =>
    simp only [Machine.exec, execFrameBoundary]
    split
    · refine settled ((LaneOnly.startRetire _).thermal.trans ?_)
      have ha (c : Scanner) (v : Supply) : ((s.finishFrame.withScan c).withSupply v).advance.thermal = s.thermal := by
        rw [(LaneOnly.advance _).thermal, State.withSupply_thermal, State.withScan_thermal, State.finishFrame,
          State.withScan_thermal, State.drive_thermal]
      split
      · rw [State.endScan, State.withSupply_thermal, State.withScan_thermal, ha]
      · rw [State.withScan_thermal, (LaneOnly.admitLane _ _).thermal, ha]
    · exact same
  | retireVisit =>
    simp only [Machine.exec, execRetireVisit]
    split
    · split
      · refine settled ((LaneOnly.withRetire _ _).thermal.trans ?_)
        split <;> rfl
      · exact same
    · exact same
  | retireWalkEnd =>
    simp only [Machine.exec, execRetireWalkEnd]
    split
    · split
      · exact settled ((((((LaneOnly.reportLane s _ _).trans (.setLane _ _ _)).trans
          (.withRetireList _ _)).trans (.withRetire _ _)).trans (.reconsider _)).trans (.startRetire _)).thermal
      · exact same
    · exact same
  | _ => exact absurd hi Bool.false_ne_true

/-- Every command keeps the Temperature Unit and the table in agreement. -/
theorem exec (h : TemperatureSound s) (i : Instr) : Answers (Machine.exec i s) TemperatureSound := by
  by_cases he : isEngineEvent i = true
  · exact h.engineEvent he
  cases hr : requestOf i with
  | some r => exact ⟨_, exec_request (i := i) hr s, (h.transact _ _ _ i).settle⟩
  | none =>
  have same : Answers (.next s) TemperatureSound := .next h
  have settled {u : State} (hu : u.thermal = s.thermal) : Answers (.next u.settle) TemperatureSound :=
    .next (settle (h.congr hu))
  cases i with
  | powerOnReset r => exact ⟨_, rfl, TemperatureSound.congr (s := State.reset) (resetSound : Sound State.reset).temperature rfl⟩
  | initSweepEnd =>
    simp only [Machine.exec, execInitSweepEnd]
    split
    · exact settled rfl
    · exact same
  | selectFall p => exact ⟨_, rfl, h.opened p⟩
  | wakingEnd =>
    simp only [Machine.exec, execWakingEnd]
    split
    · exact settled rfl
    · exact same
  | unknownCommand p taken => exact h.unknownCommand p taken
  | writePixels p ph =>
    cases ph with
    | code => exact ⟨_, rfl, h.takeCode p _⟩
    | rise => exact settled (s.endWrite_thermal p)
  | writeContinue p ph =>
    cases ph with
    | code => exact ⟨_, rfl, h.takeCode p _⟩
    | rise => exact settled (s.endWrite_thermal p)
  | readPixels p ph =>
    cases ph with
    | code => exact ⟨_, rfl, h.takeCode p _⟩
    | rise => exact settled (s.endRead_thermal p)
  | pixelDataByte p b =>
    simp only [Machine.exec, execPixelDataByte]
    split
    · refine settled ?_
      split <;> simp
    · exact .next (h.congr (s.clockUntaken_thermal p))
  | pixelByteDiscarded p =>
    simp only [Machine.exec, execPixelByteDiscarded]
    split
    · split
      · exact same
      · exact settled (s.discardPixelByte_thermal p)
    · exact .next (h.congr (s.clockUntaken_thermal p))
  | readbackLevelRead p =>
    simp only [Machine.exec, execReadbackLevelRead]
    split
    · split
      · split
        · exact settled (State.mapPort_thermal _ p _)
        · exact same
      · exact same
    · exact same
  | readbackByte p => exact h.readbackByte p
  | validationEnd => exact h.validationEnd
  | geometrySweepEnd => exact h.geometrySweepEnd
  | railGoodAsserted => exact settled rfl
  | parkTimerExpiry =>
    simp only [Machine.exec, execParkTimerExpiry]
    split
    · exact settled rfl
    · exact same
  | fallTimerExpiry =>
    simp only [Machine.exec, execFallTimerExpiry]
    split
    · split
      · exact settled (by simp)
      · exact settled (by simp)
      · exact settled rfl
    · exact same
  | railLost =>
    refine ⟨_, rfl, settle ?_⟩
    have hs : TemperatureSound (s.withSupply { s.supply with railGood := false }) := h.congr rfl
    split
    · exact hs.trip _
    · exact hs
  | riseTimeout =>
    simp only [Machine.exec, execRiseTimeout]
    split
    · exact .next (h.trip _).settle
    · exact same
  | staleTimerExpiry =>
    simp only [Machine.exec, execStaleTimerExpiry]
    split
    · exact .next (settle (goStale (h.congr s.leaveDoze_thermal)))
    · exact same
  | zoneLapse z =>
    simp only [Machine.exec, execZoneLapse]
    split
    · exact settled (by simp)
    · exact same
  | dozeTimerExpiry =>
    simp only [Machine.exec, execDozeTimerExpiry]
    split
    · exact settled rfl
    · exact same
  | resetNRise =>
    refine ⟨_, rfl, h.congr ?_⟩
    split <;> rfl
  | discardedTransactionRise p =>
    simp only [Machine.exec, execDiscardedTransactionRise]
    split
    · exact settled (s.closeDiscarded_thermal p 0)
    · exact same
  | _ => simp [isEngineEvent, requestOf] at he hr

end TemperatureSound

/-- Settles O58: the table changes only through the loading protocol, which keeps the band NONE until the table is VALID,
and the Temperature Unit only with values inside their ranges. -/
theorem stepKeepsTemperature : Obligations.StepKeepsTemperature := by
  intro s t h hs
  exact step_keeps TemperatureSound (fun s v h => h.congr rfl) (fun s t i h he => (h.exec i).elim he) s t h hs

end Sys2Proof.Machine
end

section
/-! Recipes, keys and the index map (R19 to R22, R139): O32. The map is a number in mixed radix: mode, then band and row,
then destination, then variant, and each digit is recovered from the index.
-/

namespace Sys2Proof.Machine

/-! ## Segments -/

/-- The frames that the segments spell, one after another (R19). -/
def framesOf (segs : List (Drive × Nat)) : List Drive := segs.flatMap fun g => List.replicate g.2 g.1

theorem framesOf_cons (g : Drive × Nat) (segs : List (Drive × Nat)) :
    framesOf (g :: segs) = List.replicate g.2 g.1 ++ framesOf segs := rfl

theorem segmentAt_eq (segs : List (Drive × Nat)) (k : Nat) : segmentAt segs k = ((framesOf segs)[k]?).getD .hold := by
  induction segs generalizing k with
  | nil => rfl
  | cons g segs ih =>
    rw [framesOf_cons, segmentAt, List.getElem?_append, List.length_replicate]
    split
    · rename_i hk; simp [hk]
    · exact ih _

theorem segmentsLength_eq (segs : List (Drive × Nat)) : segmentsLength segs = (framesOf segs).length := by
  simp [segmentsLength, framesOf, List.length_flatMap]

theorem segmentsNet_eq (segs : List (Drive × Nat)) : segmentsNet segs =
    ((framesOf segs).countP fun d => decide (d = .pos) : Nat) -
      ((framesOf segs).countP fun d => decide (d = .neg) : Nat) := by
  induction segs with
  | nil => rfl
  | cons g segs ih =>
    obtain ⟨d, n⟩ := g
    have hc : segmentsNet ((d, n) :: segs) = d.sign * n + segmentsNet segs := by simp [segmentsNet]
    rw [hc, ih, framesOf_cons, List.countP_append, List.countP_append, List.countP_replicate, List.countP_replicate]
    cases d <;> simp [Drive.sign] <;> omega

/-! ## The digits of a key -/

theorem digit_lt {a n r k : Nat} (ha : a < n) (hr : r < k) : a * k + r < n * k :=
  calc a * k + r < a * k + k := by omega
    _ = (a + 1) * k := by ring
    _ ≤ n * k := Nat.mul_le_mul_right k ha

theorem digit_inj {a b r s k : Nat} (hr : r < k) (hs : s < k) : a * k + r = b * k + s ↔ a = b ∧ r = s := by
  refine ⟨fun h => ?_, fun ⟨ha, hr⟩ => ha ▸ hr ▸ rfl⟩
  have hk : 0 < k := by omega
  have hd : a = b := by
    have := congrArg (· / k) h
    simpa [Nat.mul_comm _ k, Nat.mul_add_div hk, Nat.div_eq_of_lt hr, Nat.div_eq_of_lt hs] using this
  subst hd
  exact ⟨rfl, Nat.add_left_cancel h⟩

theorem rowOf_lt (f : Option Level) : rowOf f < 17 := by
  rcases f with - | f
  · decide
  · exact Nat.lt_succ_of_lt f.isLt

theorem rowOf_inj {f g : Option Level} (h : rowOf f = rowOf g) : f = g := by
  rcases f with - | f <;> rcases g with - | g <;> simp only [rowOf] at h
  · rfl
  · omega
  · omega
  · rw [Fin.ext h]

theorem LevelSet.indexOf_lt (s : LevelSet) (d : Level) : s.holds d = true → s.indexOf d < s.count := by
  cases s <;> revert d <;> decide

theorem LevelSet.indexOf_inj (s : LevelSet) (d e : Level) :
    s.holds d = true → s.holds e = true → s.indexOf d = s.indexOf e → d = e := by
  cases s <;> revert d e <;> decide

theorem ModeRecord.variantIndex_lt (m : ModeRecord) (v : Variant) : m.variantIndex v < m.variants := by
  cases h : m.compensating <;> cases v <;> simp [ModeRecord.variantIndex, ModeRecord.variants, h]

/-- The variant is disregarded when the mode is not compensating (R21). -/
theorem ModeRecord.variantIndex_inj (m : ModeRecord) (v w : Variant) :
    m.variantIndex v = m.variantIndex w ↔ (m.compensating = true → v = w) := by
  cases h : m.compensating <;> cases v <;> cases w <;> simp [ModeRecord.variantIndex, h]

/-- The place of a key among the map entries of its mode (R20). -/
def ModeRecord.keyIndex (m : ModeRecord) (band : Nat) (shown : Option Level) (dest : Level) (v : Variant) : Nat :=
  ((band * 17 + rowOf shown) * m.levels.count + m.levels.indexOf dest) * m.variants + m.variantIndex v

theorem mapIndex_eq (bands : Nat) (modes : List ModeRecord) (i : Nat) (m : ModeRecord) (b : Nat) (f : Option Level)
    (d : Level) (v : Variant) :
    mapIndex bands modes i m b f d v = modesEntries bands (modes.take i) + m.keyIndex b f d v := by
  rw [mapIndex, ModeRecord.keyIndex, Nat.add_assoc]

theorem ModeRecord.keyIndex_lt (m : ModeRecord) {bands b : Nat} (hb : b < bands) (f : Option Level) {d : Level}
    (hd : m.levels.holds d = true) (v : Variant) : m.keyIndex b f d v < m.mapEntries bands := by
  have h := digit_lt (digit_lt (digit_lt hb (rowOf_lt f)) (m.levels.indexOf_lt d hd)) (m.variantIndex_lt v)
  rwa [Nat.mul_assoc] at h

theorem ModeRecord.keyIndex_inj (m : ModeRecord) (b c : Nat) (f g : Option Level) {d e : Level}
    (hd : m.levels.holds d = true) (he : m.levels.holds e = true) (v w : Variant) :
    m.keyIndex b f d v = m.keyIndex c g e w ↔ b = c ∧ f = g ∧ d = e ∧ (m.compensating = true → v = w) := by
  unfold ModeRecord.keyIndex
  rw [digit_inj (m.variantIndex_lt v) (m.variantIndex_lt w), digit_inj (m.levels.indexOf_lt d hd) (m.levels.indexOf_lt e he),
    digit_inj (rowOf_lt f) (rowOf_lt g), m.variantIndex_inj]
  constructor
  · rintro ⟨⟨⟨hb, hf⟩, hi⟩, hv⟩
    exact ⟨hb, rowOf_inj hf, m.levels.indexOf_inj d e hd he hi, hv⟩
  · rintro ⟨rfl, rfl, rfl, hv⟩
    exact ⟨⟨⟨rfl, rfl⟩, rfl⟩, hv⟩

/-! ## The modes one after another -/

theorem modesEntries_take_succ (bands : Nat) {modes : List ModeRecord} {i : Nat} {m : ModeRecord}
    (hm : modes[i]? = some m) :
    modesEntries bands (modes.take (i + 1)) = modesEntries bands (modes.take i) + m.mapEntries bands := by
  simp [modesEntries, List.take_add_one, hm]

theorem modesEntries_take_mono (bands : Nat) (modes : List ModeRecord) :
    Monotone fun i => modesEntries bands (modes.take i) := by
  refine monotone_nat_of_le_succ fun i => ?_
  simp [modesEntries, List.take_add_one]

theorem mapIndex_bounds {bands : Nat} {modes : List ModeRecord} {i : Nat} {m : ModeRecord} (hm : modes[i]? = some m)
    {b : Nat} (hb : b < bands) (f : Option Level) {d : Level} (hd : m.levels.holds d = true) (v : Variant) :
    modesEntries bands (modes.take i) ≤ mapIndex bands modes i m b f d v ∧
    mapIndex bands modes i m b f d v < modesEntries bands (modes.take (i + 1)) := by
  rw [mapIndex_eq, modesEntries_take_succ bands hm]
  exact ⟨Nat.le_add_right _ _, Nat.add_lt_add_left (m.keyIndex_lt hb f hd v) _⟩

/-- Every key that the modes define has its place in the index map (R20). -/
theorem mapIndex_lt {bands : Nat} {modes : List ModeRecord} {i : Nat} {m : ModeRecord} (hm : modes[i]? = some m)
    {b : Nat} (hb : b < bands) (f : Option Level) {d : Level} (hd : m.levels.holds d = true) (v : Variant) :
    mapIndex bands modes i m b f d v < modesEntries bands modes := by
  have hi : i < modes.length := (List.getElem?_eq_some_iff.1 hm).1
  have := modesEntries_take_mono bands modes (show i + 1 ≤ modes.length from hi)
  simp only [List.take_length] at this
  exact (mapIndex_bounds hm hb f hd v).2.trans_le this

/-- The modes' entries do not overlap, so a place gives its mode. -/
theorem mapIndex_mode {bands : Nat} {modes : List ModeRecord} {i j : Nat} {m k : ModeRecord} (hm : modes[i]? = some m)
    (hk : modes[j]? = some k) {b c : Nat} (hb : b < bands) (hc : c < bands) {f g : Option Level} {d e : Level}
    (hd : m.levels.holds d = true) (he : k.levels.holds e = true) {v w : Variant}
    (h : mapIndex bands modes i m b f d v = mapIndex bands modes j k c g e w) : i = j := by
  obtain ⟨hi1, hi2⟩ := mapIndex_bounds hm hb f hd v
  obtain ⟨hj1, hj2⟩ := mapIndex_bounds hk hc g he w
  rcases Nat.lt_trichotomy i j with hij | hij | hij
  · have := modesEntries_take_mono bands modes (show i + 1 ≤ j from hij)
    simp only at this
    omega
  · exact hij
  · have := modesEntries_take_mono bands modes (show j + 1 ≤ i from hij)
    simp only at this
    omega

/-- A table's map has as many entries as its modes imply (R20). -/
theorem mapSize_eq (bands : Nat) (modes : List ModeRecord) : mapSize bands modes = modesEntries bands modes := rfl

/-- Every key that a table defines has a recipe, when its map is of full length and names recipes of its pool (R20, R34). -/
theorem Table.lookup_some {t : Table} (hmap : t.map.length = mapSize t.header.bandCount t.modes)
    (hentries : ∀ n ∈ t.map, n < t.pool.length) {i : Nat} {m : ModeRecord} (hm : t.modes[i]? = some m) {b : Nat}
    (hb : b < t.header.bandCount) (f : Option Level) {d : Level} (hd : m.levels.holds d = true) (v : Variant) :
    ∃ r, t.lookup i b f d v = some r := by
  have hx : mapIndex t.header.bandCount t.modes i m b f d v < t.map.length := by
    rw [hmap, mapSize_eq]; exact mapIndex_lt hm hb f hd v
  have hn := hentries _ (List.getElem_mem hx)
  refine Option.isSome_iff_exists.1 ?_
  simp [Table.lookup, hm, List.getElem?_eq_getElem hx, List.getElem?_eq_getElem hn]

/-- Settles O32. -/
theorem recipeLookup : Obligations.RecipeLookup := by
  refine ⟨fun segs => ⟨segmentAt_eq segs, segmentsLength_eq segs, segmentsNet_eq segs⟩,
    fun t i j m k b c f g d e v w h hm hk hb hc hd he => ⟨?_, ?_, fun hx => ?_, ?_⟩,
    fun s r => ⟨fun hn => ?_, fun l hl => ⟨fun hs => ?_, fun hs t b q ht hb hq => ?_⟩⟩⟩
  · rw [h.mapLength, mapSize_eq]
    exact mapIndex_lt hm hb f hd v
  · exact Table.lookup_some (h.bandCount ▸ h.mapLength) h.mapEntries hm (h.bandCount ▸ hb) f hd v
  · obtain rfl := mapIndex_mode hm hk hb hc hd he hx
    obtain rfl : m = k := Option.some.inj (hm.symm.trans hk)
    rw [mapIndex_eq, mapIndex_eq, Nat.add_left_cancel_iff] at hx
    exact ⟨rfl, (m.keyIndex_inj b c f g hd he v w).1 hx⟩
  · rintro ⟨rfl, hkey⟩
    obtain rfl : m = k := Option.some.inj (hm.symm.trans hk)
    rw [mapIndex_eq, mapIndex_eq, (m.keyIndex_inj b c f g hd he v w).2 hkey]
  · simp [State.driveCode, hn]
  · simp [State.driveCode, hl, hs]
  · simp [State.driveCode, State.recipe, hl, hs, ht, hb, hq]

end Sys2Proof.Machine
end

section
/-! The loading protocol (R25 to R29, R36, R45): O29. -/

namespace Sys2Proof.Machine

/-! ## A table command at the rise of its select -/

/-- A command of the loading protocol that its port may make has its effect as its select has risen (R169). -/
theorem exec_taken {i : Instr} {p : Port} {req : List Byte} {more : Bool} {n : Nat}
    (hi : requestOf i = some (p, req, more, n)) {s : State} (h : s.takes p)
    (hn : if more then n ≤ req.length else req.length = n) :
    exec i s = .next (effectOf i (s.setPort p (s.risen p (req.length + 1)))).settle := by
  rw [exec_request hi, State.transact_takes _ _ _ _ _ _ h]
  cases more <;> simpa [Frame.fits] using hn

/-- A result and the table do not touch each other. -/
theorem State.setResult_withTable (s : State) (p : Port) (r : Result) (v : TableUnit) :
    (s.withTable v).setResult p r = (s.setResult p r).withTable v := by
  rw [State.setResult_eq, State.setResult_eq]
  cases p <;> rfl

theorem State.ends_withTable (s : State) (p : Port) (n : Nat) (r : Result) (v : TableUnit) :
    ((s.setPort p (s.risen p n)).withTable v).setResult p r = (s.ends p n r).withTable v := by
  rw [State.setResult_withTable, State.setResult_risen]

theorem eq_otherPort_of_ne {p q : Port} (h : q ≠ p) : q = otherPort p := by
  cases p <;> cases q <;> simp_all [otherPort]

theorem otherPort_ne (p : Port) : otherPort p ≠ p := by cases p <;> decide

/-! ## TABLE_BEGIN -/

section Effects

variable {s : State} {p : Port} {n : Nat} {req : List Byte}

/-- A load begins from an empty table memory (R25). -/
def freshLoad (p : Port) : TableUnit := ⟨.loading p false, [], 0, none⟩

theorem effectTableBegin_inUse (h : ∃ l, (s.lane l).state ≠ .free) :
    effectTableBegin p req (s.setPort p (s.risen p n)) = s.ends p n .inUse := by
  have hf : s.allFree = false := by
    rw [← Bool.not_eq_true, State.allFree_iff]; simpa using h
  simp [effectTableBegin, hf, State.setResult_risen]

/-- A port that may begin a load while no table is VALID begins it (R25). -/
theorem effectTableBegin_starts (h : ∀ l, (s.lane l).state = .free)
    (hp : (∃ v, s.table.phase = .loading p v) ∨ s.table.phase = .empty ∨ ∃ c, s.table.phase = .invalid c) :
    effectTableBegin p req (s.setPort p (s.risen p n)) = (s.ends p n .ok).withTable (freshLoad p) := by
  have hf : s.allFree = true := s.allFree_iff.2 h
  rw [← State.ends_withTable]
  rcases hp with ⟨v, hv⟩ | hv | ⟨c, hv⟩ <;> simp [effectTableBegin, hf, hv, freshLoad]

theorem effectTableBegin_refused (h : ∀ l, (s.lane l).state = .free) {v : Bool}
    (hp : s.table.phase = .loading (otherPort p) v) :
    effectTableBegin p req (s.setPort p (s.risen p n)) = s.ends p n .loadInProgress := by
  have hf : s.allFree = true := s.allFree_iff.2 h
  simp [effectTableBegin, hf, hp, otherPort_ne, State.setResult_risen]

/-- A VALID table is left with the band NONE and TABLE_CHANGED on both ports (R36, R45). -/
theorem effectTableBegin_valid (h : ∀ l, (s.lane l).state = .free) (hp : s.table.phase = .valid) :
    effectTableBegin p req (s.setPort p (s.risen p n)) =
      (((s.withTable (freshLoad p)).withTemp { s.temp with band := none }).setPort p
        { s.ended p n .ok with flags := (s.port p).flags ||| 0x200 }).setPort (otherPort p)
        { s.port (otherPort p) with flags := (s.port (otherPort p)).flags ||| 0x200 } := by
  have hf : s.allFree = true := s.allFree_iff.2 h
  have hs : effectTableBegin p req (s.setPort p (s.risen p n)) =
      ((((s.setPort p (s.risen p n)).withTemp { s.temp with band := none }).raiseBoth .tableChanged).withTable
        (freshLoad p)).setResult p .ok := by
    simp [effectTableBegin, hf, hp, freshLoad]
  rw [hs]
  cases p <;> rfl

/-! ## TABLE_DATA, TABLE_END, TABLE_ABORT -/

theorem effectTableData_own (hp : s.table.phase = .loading p false) :
    effectTableData p req (s.setPort p (s.risen p n)) =
      if 65536 < s.table.received + req.length then
        (s.ends p n .tooLarge).withTable { s.table with phase := .invalid .tooLarge }
      else (s.ends p n .ok).withTable
        { s.table with memory := s.table.memory ++ req, received := s.table.received + req.length } := by
  simp [effectTableData, hp, Config.tableBytes, State.ends_withTable]

/-- Only the owner of a load may go on with it, and only while a load is under way (R29). -/
theorem effectTableData_refused :
    (∀ v, s.table.phase = .loading (otherPort p) v →
      effectTableData p req (s.setPort p (s.risen p n)) = s.ends p n .loadInProgress) ∧
    ((∀ own v, s.table.phase ≠ .loading own v) →
      effectTableData p req (s.setPort p (s.risen p n)) = s.ends p n .notLoading) := by
  refine ⟨fun v hp => ?_, fun hp => ?_⟩
  · simp [effectTableData, hp, otherPort_ne, State.setResult_risen]
  · cases hs : s.table.phase with
    | loading own v => exact absurd hs (hp own v)
    | _ => simp [effectTableData, hs, State.setResult_risen]

theorem effectTableEnd_own (hp : s.table.phase = .loading p false) :
    effectTableEnd p req (s.setPort p (s.risen p n)) =
      (s.ends p n .ok).withTable { s.table with phase := .loading p true } := by
  simp [effectTableEnd, hp, State.ends_withTable]

theorem effectTableEnd_refused :
    (∀ v, s.table.phase = .loading (otherPort p) v →
      effectTableEnd p req (s.setPort p (s.risen p n)) = s.ends p n .loadInProgress) ∧
    ((∀ own v, s.table.phase ≠ .loading own v) →
      effectTableEnd p req (s.setPort p (s.risen p n)) = s.ends p n .notLoading) := by
  refine ⟨fun v hp => ?_, fun hp => ?_⟩
  · simp [effectTableEnd, hp, otherPort_ne, State.setResult_risen]
  · cases hs : s.table.phase with
    | loading own v => exact absurd hs (hp own v)
    | _ => simp [effectTableEnd, hs, State.setResult_risen]

/-- An abort by either port ends the load; the owner hears of it when its validation is cut short (R28). -/
theorem effectTableAbort_loading {own : Port} {v : Bool} (hp : s.table.phase = .loading own v) :
    effectTableAbort p req (s.setPort p (s.risen p n)) =
      let gone := (s.ends p n .ok).withTable { s.table with phase := .invalid .aborted, memory := [] }
      if v = true ∧ own ≠ p then gone.setPort own
        { s.port own with result := .aborted, flags := (s.port own).flags ||| 0x004 }
      else gone := by
  by_cases hc : v = true ∧ own ≠ p
  · obtain ⟨rfl, ho⟩ := hc
    obtain rfl := eq_otherPort_of_ne ho
    have hs : effectTableAbort p req (s.setPort p (s.risen p n)) =
        ((s.setPort p (s.risen p n)).abortLoad.setResult (otherPort p) .aborted).setResult p .ok := by
      unfold effectTableAbort
      rw [State.setPort_table, hp]
      exact congrArg (State.setResult · p .ok) (if_pos (by simpa using ho))
    simp only [hs]
    rw [if_pos ⟨trivial, ho⟩]
    cases p <;> rfl
  · have hb : (v && decide (own ≠ p)) = false := by
      simpa using hc
    simp only [if_neg hc]
    rw [← State.ends_withTable]
    simp only [effectTableAbort, State.setPort_table, hp, hb]
    simp [State.abortLoad]

theorem effectTableAbort_idle (hp : ∀ own v, s.table.phase ≠ .loading own v) :
    effectTableAbort p req (s.setPort p (s.risen p n)) = s.ends p n .notLoading := by
  cases hs : s.table.phase with
  | loading own v => exact absurd hs (hp own v)
  | _ => simp [effectTableAbort, hs, State.setResult_risen]

end Effects

/-- Settles O29, by the state of the table and the owner of its load. -/
theorem tableCommands : Obligations.TableCommands := by
  intro p s h o fresh idle
  have hbegin := exec_taken (i := .tableBegin p []) rfl h rfl
  have hdata (d : List Byte) := exec_taken (i := .tableData p d) rfl h (Nat.zero_le _)
  have hend := exec_taken (i := .tableEnd p []) rfl h rfl
  have habort := exec_taken (i := .tableAbort p []) rfl h rfl
  simp only [effectOf, List.length_nil, Nat.zero_add] at hbegin hdata hend habort
  refine ⟨fun hl => ?_, fun hl => ⟨fun v hv => ?_, fun hp => ?_, fun hp => ?_⟩, fun d => ⟨fun hp hd => ?_, fun hp hd => ?_,
    fun ⟨v, hv⟩ => ?_, fun hi => ?_⟩, fun hp => ?_, fun ⟨v, hv⟩ => ?_, fun hi => ?_, ⟨fun hp => ?_, fun hp => ?_⟩, fun hi => ?_⟩
  · rw [hbegin, effectTableBegin_inUse hl]
  · rw [hbegin, effectTableBegin_refused hl hv]
  · rw [hbegin, effectTableBegin_starts hl hp]; rfl
  · rw [hbegin, effectTableBegin_valid hl hp]; rfl
  · rw [hdata, effectTableData_own hp, if_neg (by omega)]
  · rw [hdata, effectTableData_own hp, if_pos hd]
  · rw [hdata, effectTableData_refused.1 v hv]
  · rw [hdata, effectTableData_refused.2 hi]
  · rw [hend, effectTableEnd_own hp]
  · rw [hend, effectTableEnd_refused.1 v hv]
  · rw [hend, effectTableEnd_refused.2 hi]
  · rw [habort, effectTableAbort_loading hp]
    simp [o, otherPort_ne]
  · rcases hp with ⟨v, hv⟩ | hv
    · rw [habort, effectTableAbort_loading hv]
      simp
    · rw [habort, effectTableAbort_loading hv]
      simp
  · rw [habort, effectTableAbort_idle hi]

end Sys2Proof.Machine
end

section
/-! Power-on reset (R161 and the reset tables): O3.
-/

namespace Sys2Proof.Machine

/-- Settles O3: the reset state is written down field by field, and POWER_ON_RESET answers it with the pins, the
transactions and the queue that it was given. -/
theorem powerOnReset : Obligations.PowerOnReset := by
  have units : State.reset.temp = ⟨.absent, none, none, none, 1, 60⟩ ∧ State.reset.table = ⟨.empty, [], 0, none⟩ := ⟨rfl, rfl⟩
  refine ⟨⟨rfl, rfl, rfl, fun p => ?_, units.2, units.1, rfl, State.reset_zone, rfl, State.reset_lane, ?_⟩, fun r s => ?_⟩
  · rw [State.reset_port]
    exact ⟨rfl, rfl, rfl, rfl, rfl, rfl, rfl, rfl, rfl⟩
  · repeat' constructor
  · simp only [exec, execPowerOnReset, Transaction.abandoned_eq]
    rfl

end Sys2Proof.Machine
end

section
/-! The queries of the status, the scan and the table (R37, R51, R145, R159, R185): O39. -/

namespace Sys2Proof.Machine

/-- A query that takes effect (R171): its response leads with the result as it stood, and nothing but its port changes. -/
theorem exec_answer {i : Instr} {p : Port} {fill : List Byte} (hi : requestOf i = some (p, fill, true, 0)) {s : State}
    (h : s.takes p) {data : List Byte}
    (he : effectOf i (s.setPort p (s.risen p (fill.length + 1))) =
      (s.setPort p (s.risen p (fill.length + 1))).answer p data id) :
    exec i s = .next ((s.setPort p { s.ended p (fill.length + 1) .ok with
      response := (s.port p).result.code :: data }).settle) := by
  rw [exec_request hi, State.transact_takes _ _ _ _ _ _ h (by simp [Frame.fits]), he]
  simp [State.answer, State.setResult_eq, State.risen, State.ended, Result.code]

/-- The consents that a status block shows to a port whose own transaction has just risen: its own is cleared (R164). -/
def State.otherConsent (s : State) : Port → Byte
  | .a => if s.portB.consent then 2 else 0
  | .b => if s.portA.consent then 1 else 0

/-- The rise of the query's own transaction shows in the status block as the cleared consent alone (R164, R185). -/
theorem State.statusBytes_risen (s : State) (p : Port) (n : Nat) :
    (s.setPort p (s.risen p n)).statusBytes =
      laneIds.flatMap (fun l => laneBytes (s.lane l)) ++
      [laneByte (s.survey.map Survey.lane), laneByte (s.retire.map RetireWalk.lane)] ++
      s.countBytes .a ++ s.countBytes .b ++ zoneIds.map (fun z => zoneByte (s.zone z)) ++
      [s.supplyByte, flagByte s.supply.recovery, s.supply.cause.code, 1, s.otherConsent p, s.temp.freshness.code,
       (s.temp.effective.map signedByte).getD 0x80, bandByte s.temp.band] := by
  have consents : byteOf ((if (s.setPort p (s.risen p n)).portA.consent then 1 else 0) +
      (if (s.setPort p (s.risen p n)).portB.consent then 2 else 0)) = s.otherConsent p := by
    cases p
    · cases hb : s.portB.consent <;> simp [State.risen, hb, byteOf, State.otherConsent]
    · cases ha : s.portA.consent <;> simp [State.risen, ha, byteOf, State.otherConsent]
  have counts (o : Port) : (s.setPort p (s.risen p n)).countBytes o = s.countBytes o := by
    cases p <;> cases o <;> rfl
  have supply : (s.setPort p (s.risen p n)).supplyByte = s.supplyByte := by cases p <;> rfl
  simp only [State.statusBytes, counts, consents, supply, State.setPort_lane, State.setPort_zone, State.setPort_survey,
    State.setPort_retire, State.setPort_supply, State.setPort_temp]
  cases s.temp.effective <;> rfl

@[simp] theorem laneBytes_length (L : Lane) : (laneBytes L).length = 3 := by
  unfold laneBytes
  split <;> rfl

/-- Settles O39. -/
theorem statusQueries : Obligations.StatusQueries := by
  intro p s fill h q answered lanes counts zoneCode band number status count none10
  have hlanes : (fun l => laneBytes (s.lane l)) = lanes := by
    funext l
    cases hl : (s.lane l).state <;> cases ho : (s.lane l).owner <;> simp [laneBytes, lanes, hl, ho, LaneState.code, portCode]
  have hcounts (o : Port) : s.countBytes o = counts o := by
    simp [State.countBytes, counts, List.countP_eq_length_filter]
  have hzone (z : Option Zone) : zoneByte z = zoneCode z := by
    rcases z with - | ⟨_ | _, _, _⟩ <;> rfl
  have hband : bandByte = band := by funext b; cases b <;> rfl
  have hnumber : laneByte = number := by funext l; cases l <;> rfl
  have hstatus : (s.setPort p (s.risen p (fill.length + 1))).statusBytes = status := by
    have heffective : (s.temp.effective.map signedByte).getD 0x80 =
        (match s.temp.effective with | none => 0x80 | some x => BitVec.ofInt 8 x) := by
      cases s.temp.effective <;> rfl
    rw [State.statusBytes_risen, hlanes, hcounts, hcounts, hband, hnumber, List.append_assoc, heffective]
    refine congrArg (List.append _) ?_
    simp only [zoneIds, List.map_cons, List.map_nil, List.cons_append, List.nil_append, hzone]
    rfl
  have length : status.length = 65 := by
    rw [← hstatus, State.statusBytes_risen]
    simp [State.countBytes, zoneIds, laneIds]
  have scan (data : List Byte) (hd : scanBytes s.scan = data) : exec (.getScan p fill) s = .next (answered data) :=
    hd ▸ exec_answer (i := .getScan p fill) rfl h (by simp [effectOf, effectGetScan])
  have info (data : List Byte) (hd : tableInfoBytes s.table = data) :
      exec (.getTableInfo p fill) s = .next (answered data) :=
    hd ▸ exec_answer (i := .getTableInfo p fill) rfl h (by simp [effectOf, effectGetTableInfo])
  refine ⟨?_, length, ?_, fun hp => ?_, fun own v hp => ?_, fun c hp => ?_, fun t hp ht => ?_⟩
  · exact hstatus ▸ exec_answer (i := .getStatus p fill) rfl h rfl
  · refine scan _ ?_
    rw [← hband]
    cases hr : s.scan.row <;> simp [scanBytes, hr, optionBytes, notApplicable, flagByte]
  · exact info _ (by simp [tableInfoBytes, hp, headerBytes, notApplicable, count, none10])
  · exact info _ (by cases own <;> simp [tableInfoBytes, hp, headerBytes, notApplicable, count, none10, portCode, flagByte])
  · exact info _ (by simp [tableInfoBytes, hp, headerBytes, notApplicable, count, none10])
  · exact info _ (by simp [tableInfoBytes, hp, ht, headerBytes, count])

end Sys2Proof.Machine
end

section
/-! The readers of the table image (R30 to R34, R186), each as the inverse of what writes its section: a reader answers a
value and the bytes left exactly when the value is within its ranges and the bytes read are its image.
-/

namespace Sys2Proof.Machine

/-! ## Bytes -/

theorem byteOf_toNat (b : Byte) : byteOf b.toNat = b := by simp [byteOf]

theorem toNat_byteOf {n : Nat} (h : n < 256) : (byteOf n).toNat = n := by simp [byteOf]; omega

theorem signedByte_toInt (b : Byte) : signedByte b.toInt = b := by simp [signedByte]

theorem toInt_signedByte {v : Int} (h : -128 ≤ v ∧ v ≤ 127) : (signedByte v).toInt = v := by
  rw [signedByte, BitVec.toInt_ofInt]
  exact Int.bmod_eq_of_le (by omega) (by omega)

theorem word16_lt (a b : Byte) : word16 a b < 65536 := by
  have := a.isLt
  have := b.isLt
  unfold word16
  omega

/-- Two bytes of a number are read back modulo 65536. -/
theorem word16_mod (n : Nat) : word16 (BitVec.ofNat 8 (n / 256)) (BitVec.ofNat 8 n) = n % 65536 := by
  simp [word16]; omega

theorem bytesOf_two_mod (n k : Nat) : bytesOf 2 (k * 65536 + n) = bytesOf 2 n := by
  rw [bytesOf_two, bytesOf_two]
  congr 1
  · exact BitVec.eq_of_toNat_eq (by simp; omega)
  · congr 1
    exact BitVec.eq_of_toNat_eq (by simp; omega)

theorem bytesOf_word16 (a b : Byte) : bytesOf 2 (word16 a b) = [a, b] := by
  have := a.isLt
  have := b.isLt
  rw [bytesOf_two, word16]
  congr 1
  · exact BitVec.eq_of_toNat_eq (by simp; omega)
  · congr 1
    exact BitVec.eq_of_toNat_eq (by simp; omega)

theorem bytesOf_four (n : Nat) : bytesOf 4 n = bytesOf 2 (n / 65536) ++ bytesOf 2 n := by
  simp [bytesOf, Nat.div_div_eq_div_mul]

theorem bytesOf_words (a b c d : Byte) : bytesOf 4 (word16 a b * 65536 + word16 c d) = [a, b, c, d] := by
  have h : (word16 a b * 65536 + word16 c d) / 65536 = word16 a b := by
    have := word16_lt c d
    omega
  rw [bytesOf_four, h, bytesOf_two_mod, bytesOf_word16, bytesOf_word16]
  rfl

/-! ## Readers -/

/-- The reader answers exactly the values that satisfy `ok`, from the bytes that `img` writes for them. -/
def Reads {α : Type} (one : List Byte → Option (α × List Byte)) (ok : α → Prop) (img : α → List Byte) : Prop :=
  ∀ bytes x rest, one bytes = some (x, rest) ↔ ok x ∧ bytes = img x ++ rest

/-- The same reader, `n` times. -/
def readMany {α : Type} (one : List Byte → Option (α × List Byte)) : Nat → List Byte → Option (List α × List Byte)
  | 0, bytes => some ([], bytes)
  | n + 1, bytes => (one bytes).bind fun x => (readMany one n x.2).map fun xs => (x.1 :: xs.1, xs.2)

theorem Reads.many {α : Type} {one : List Byte → Option (α × List Byte)} {ok : α → Prop} {img : α → List Byte}
    (h : Reads one ok img) (n : Nat) :
    Reads (readMany one n) (fun xs => xs.length = n ∧ ∀ x ∈ xs, ok x) (fun xs => xs.flatMap img) := by
  induction n with
  | zero =>
    intro bytes xs rest
    cases xs <;> simp [readMany, eq_comm]
  | succ n ih =>
    intro bytes xs rest
    simp only [readMany, Option.bind_eq_some_iff, Option.map_eq_some_iff, Prod.exists, Prod.mk.injEq]
    constructor
    · rintro ⟨x, mid, hx, ys, rest, hys, rfl, rfl⟩
      obtain ⟨hok, rfl⟩ := (h _ _ _).1 hx
      obtain ⟨⟨hlen, hall⟩, rfl⟩ := (ih _ _ _).1 hys
      exact ⟨⟨by simp [hlen], by simpa using ⟨hok, hall⟩⟩, by simp⟩
    · rintro ⟨⟨hlen, hall⟩, rfl⟩
      cases xs with
      | nil => simp at hlen
      | cons x ys =>
        rw [List.forall_mem_cons] at hall
        exact ⟨x, ys.flatMap img ++ rest, (h _ _ _).2 ⟨hall.1, by simp⟩, ys, rest,
          (ih _ _ _).2 ⟨⟨by simpa using hlen, hall.2⟩, rfl⟩, rfl, rfl⟩

/-! ## The header (R31) -/

theorem Header.image_eq (h : Header) : h.image =
    [byteOf h.version, byteOf h.modeCount, byteOf h.bandCount, byteOf h.staleBand, BitVec.ofNat 8 (h.recipeCount / 256),
      BitVec.ofNat 8 h.recipeCount, BitVec.ofNat 8 (h.length / 65536 / 256), BitVec.ofNat 8 (h.length / 65536),
      BitVec.ofNat 8 (h.length / 256), BitVec.ofNat 8 h.length] := by
  simp [Header.image, bytesOf_four, bytesOf_two]

theorem parseHeader_reads : Reads parseHeader Header.Legal Header.image := by
  intro bytes h rest
  constructor
  · intro hp
    unfold parseHeader at hp
    split at hp
    · simp only at hp
      split at hp
      · rename_i hv
        obtain ⟨hver, hmodes, hbands, hstale, hrecipes, hlen⟩ := hv
        cases hp
        refine ⟨⟨hver, hmodes, hbands, hstale, hrecipes, hlen⟩, ?_⟩
        simp [Header.image, byteOf_toNat, bytesOf_word16, bytesOf_words]
      · cases hp
    · cases hp
  · rintro ⟨⟨hver, hmodes, hbands, hstale, hrecipes, hlen⟩, rfl⟩
    have h1 : word16 (BitVec.ofNat 8 (h.recipeCount / 256)) (BitVec.ofNat 8 h.recipeCount) = h.recipeCount :=
      word16_ofNat _ (by omega)
    have h2 : word16 (BitVec.ofNat 8 (h.length / 65536 / 256)) (BitVec.ofNat 8 (h.length / 65536)) * 65536 +
        word16 (BitVec.ofNat 8 (h.length / 256)) (BitVec.ofNat 8 h.length) = h.length := by
      rw [word16_mod, word16_mod]; omega
    have hb : h.bandCount < 256 ∧ h.modeCount < 256 ∧ h.staleBand < 256 ∧ h.version < 256 := by omega
    obtain ⟨hb1, hb2, hb3, hb4⟩ := hb
    rw [Header.image_eq]
    simp only [List.cons_append, List.nil_append, parseHeader, h1, h2, toNat_byteOf hb1, toNat_byteOf hb2, toNat_byteOf hb3,
      toNat_byteOf hb4]
    rw [if_pos ⟨hver, hmodes, hbands, hstale, hrecipes, hlen⟩]

/-! ## Bands (R17, R32) -/

/-- One band record. -/
def parseBand : List Byte → Option (BandRecord × List Byte)
  | b0 :: b1 :: b2 :: rest => some ({ lower := b0.toInt, period := word16 b1 b2 }, rest)
  | _ => none

/-- A band record that its three bytes can hold. -/
def BandRecord.Coded (b : BandRecord) : Prop := (-128 ≤ b.lower ∧ b.lower ≤ 127) ∧ b.period < 65536

theorem parseBand_reads : Reads parseBand BandRecord.Coded BandRecord.image := by
  intro bytes b rest
  constructor
  · intro hp
    unfold parseBand at hp
    split at hp
    · rename_i b0 b1 b2 _
      cases hp
      refine ⟨⟨⟨b0.le_toInt, Int.le_of_lt_add_one b0.toInt_lt⟩, word16_lt _ _⟩, ?_⟩
      simp [BandRecord.image, signedByte_toInt, bytesOf_word16]
    · cases hp
  · rintro ⟨⟨hl, hp⟩, rfl⟩
    simp [BandRecord.image, bytesOf_two, parseBand, toInt_signedByte hl, word16_ofNat _ hp]

theorem parseBands_eq (n : Nat) (bytes : List Byte) : parseBands n bytes = readMany parseBand n bytes := by
  induction n generalizing bytes with
  | zero => rfl
  | succ n ih =>
    rcases bytes with - | ⟨b0, - | ⟨b1, - | ⟨b2, rest⟩⟩⟩
    · rfl
    · rfl
    · rfl
    · simp [parseBands, readMany, parseBand, ih]

theorem ascending_iff (l : List Int) : ascending l = true ↔ l.Pairwise (· < ·) := by
  rw [← List.isChain_iff_pairwise]
  induction l with
  | nil => simp [ascending]
  | cons a l ih =>
    cases l with
    | nil => simp [ascending]
    | cons b l => simp [ascending, ih]

theorem bandsInOrder_iff (bands : List BandRecord) : bandsInOrder bands = true ↔
    (∀ b ∈ bands, 100 ≤ b.period ∧ b.period ≤ 1300) ∧ (bands.tail.map BandRecord.lower).Pairwise (· < ·) := by
  simp [bandsInOrder, ascending_iff]

/-- The bands pass step 3 exactly when they are legal (R17, R32). -/
theorem bandsLegal_iff (bands : List BandRecord) : BandsLegal bands ↔
    (∀ b ∈ bands, b.Coded) ∧ bandsInOrder bands = true := by
  rw [bandsInOrder_iff]
  constructor
  · rintro ⟨hv, hr⟩
    refine ⟨fun b hb => ?_, fun b hb => ?_, hr⟩
    · obtain ⟨h1, h2, -, h4⟩ := hv b hb
      exact ⟨⟨h1, h2⟩, by omega⟩
    · obtain ⟨-, -, h3, h4⟩ := hv b hb
      exact ⟨h3, h4⟩
  · rintro ⟨hc, hp, hr⟩
    refine ⟨fun b hb => ?_, hr⟩
    obtain ⟨⟨h1, h2⟩, -⟩ := hc b hb
    exact ⟨h1, h2, hp b hb⟩

/-- Steps 2 and 3: `n` legal band records and the bytes after them. -/
theorem parseBands_reads (n : Nat) :
    Reads (parseBands n) (fun xs => xs.length = n ∧ ∀ x ∈ xs, x.Coded) (fun xs => xs.flatMap BandRecord.image) := by
  rw [funext (parseBands_eq n)]
  exact parseBand_reads.many n

/-! ## Modes (R18, R33) -/

/-- One mode record and the bytes after it. -/
def parseModeRecord : List Byte → Option (ModeRecord × List Byte)
  | b0 :: b1 :: b2 :: b3 :: b4 :: b5 :: rest => (parseMode b0 b1 b2 b3 b4 b5).map fun m => (m, rest)
  | _ => none

/-- A mode record whose fields are within their values, but for what its promote target must be. -/
def ModeRecord.Coded (m : ModeRecord) : Prop :=
  m.cost ≤ 7 ∧ (1 ≤ m.ratio ∧ m.ratio ≤ 256) ∧ ∀ x, m.promote = some x → x < 255

/-- The level set that a count of levels names (R33). -/
def levelSetOf (n : Nat) : Option LevelSet :=
  if n = 2 then some .two else if n = 4 then some .four else if n = 16 then some .sixteen else none

theorem levelSetOf_eq_some {n : Nat} {l : LevelSet} : levelSetOf n = some l ↔ n = l.count := by
  unfold levelSetOf
  cases l <;> grind [LevelSet.count]

/-- The byte of a mode's flags: four of them in the low bits (R186). -/
def modeFlagsByte (c d u k : Bool) : Byte :=
  byteOf ((if c then 1 else 0) + (if d then 2 else 0) + (if u then 4 else 0) + (if k then 8 else 0))

theorem modeFlagsByte_bits (c d u k : Bool) : (modeFlagsByte c d u k).toNat < 16 ∧ (modeFlagsByte c d u k).getLsbD 0 = c ∧
    (modeFlagsByte c d u k).getLsbD 1 = d ∧ (modeFlagsByte c d u k).getLsbD 2 = u ∧
    (modeFlagsByte c d u k).getLsbD 3 = k := by
  revert c d u k; decide

theorem modeFlagsByte_of_lt (b : Byte) (h : b.toNat < 16) :
    modeFlagsByte (b.getLsbD 0) (b.getLsbD 1) (b.getLsbD 2) (b.getLsbD 3) = b := by
  have hall : ∀ n : Fin 16, modeFlagsByte ((byteOf n).getLsbD 0) ((byteOf n).getLsbD 1) ((byteOf n).getLsbD 2)
      ((byteOf n).getLsbD 3) = byteOf n := by decide
  have := hall ⟨b.toNat, h⟩
  rwa [byteOf_toNat] at this

/-- The promote target's byte: FFh for none (R186). -/
def promoteByte : Option Nat → Byte
  | none => 0xFF
  | some x => byteOf x

theorem ModeRecord.image_eq (m : ModeRecord) : m.image =
    [byteOf m.levels.count, modeFlagsByte m.clearing m.drivesUnchanged m.acceptsUnknown m.compensating, byteOf m.cost,
      promoteByte m.promote, BitVec.ofNat 8 (m.ratio / 256), BitVec.ofNat 8 m.ratio] := by
  rw [ModeRecord.image, bytesOf_two]
  cases m.promote <;> rfl

theorem parseMode_eq (b0 b1 b2 b3 b4 b5 : Byte) : parseMode b0 b1 b2 b3 b4 b5 = (levelSetOf b0.toNat).bind fun l =>
    if b1.toNat < 16 ∧ b2.toNat ≤ 7 ∧ 1 ≤ word16 b4 b5 ∧ word16 b4 b5 ≤ 256 then
      some ⟨l, b1.getLsbD 0, b1.getLsbD 1, b1.getLsbD 2, b1.getLsbD 3, b2.toNat,
        if b3 = 0xFF then none else some b3.toNat, word16 b4 b5⟩
    else none := rfl

theorem promoteByte_of_byte (b : Byte) : promoteByte (if b = 0xFF then none else some b.toNat) = b := by
  split
  · rename_i h; exact h.symm
  · exact byteOf_toNat b

theorem promote_of_promoteByte {o : Option Nat} (h : ∀ x, o = some x → x < 255) :
    (if promoteByte o = 0xFF then none else some (promoteByte o).toNat) = o := by
  cases o with
  | none => rfl
  | some x =>
    have hx := h x rfl
    have hn : (byteOf x).toNat = x := toNat_byteOf (by omega)
    have hne : byteOf x ≠ 0xFF := fun hc => by
      rw [hc] at hn
      have : (0xFF : Byte).toNat = 255 := rfl
      omega
    rw [promoteByte, if_neg hne, hn]

/-- One mode record is read back from its six bytes, and is within its values (R33, R186). -/
theorem parseMode_eq_some {b0 b1 b2 b3 b4 b5 : Byte} {m : ModeRecord} :
    parseMode b0 b1 b2 b3 b4 b5 = some m ↔ m.Coded ∧ [b0, b1, b2, b3, b4, b5] = m.image := by
  rw [parseMode_eq, ModeRecord.image_eq, Option.bind_eq_some_iff]
  constructor
  · rintro ⟨l, hl, hm⟩
    split at hm
    · rename_i hv
      obtain ⟨h1, h2, h3, h4⟩ := hv
      cases hm
      refine ⟨⟨h2, ⟨h3, h4⟩, fun x hx => ?_⟩, ?_⟩
      · have := b3.isLt
        have hne : b3 ≠ 0xFF := fun hc => by simp [hc] at hx
        have hn : b3.toNat ≠ 255 := fun hc => hne (BitVec.eq_of_toNat_eq hc)
        simp only [if_neg hne, Option.some.injEq] at hx
        omega
      · have hw := bytesOf_word16 b4 b5
        rw [bytesOf_two] at hw
        simp only [promoteByte_of_byte, modeFlagsByte_of_lt b1 h1, byteOf_toNat, ← levelSetOf_eq_some.1 hl, hw]
    · cases hm
  · rintro ⟨⟨hcost, hratio, hpromote⟩, hbytes⟩
    simp only [List.cons.injEq, and_true] at hbytes
    obtain ⟨rfl, rfl, rfl, rfl, rfl, rfl⟩ := hbytes
    obtain ⟨ha, hc, hd, hu, hk⟩ := modeFlagsByte_bits m.clearing m.drivesUnchanged m.acceptsUnknown m.compensating
    have hl : m.levels.count < 256 := by cases m.levels <;> decide
    refine ⟨m.levels, levelSetOf_eq_some.2 (toNat_byteOf hl), ?_⟩
    rw [toNat_byteOf (show m.cost < 256 by omega), word16_ofNat _ (show m.ratio < 65536 by omega),
      if_pos ⟨ha, hcost, hratio⟩, hc, hd, hu, hk, promote_of_promoteByte hpromote]

theorem parseModeRecord_reads : Reads parseModeRecord ModeRecord.Coded ModeRecord.image := by
  intro bytes m rest
  constructor
  · intro hp
    unfold parseModeRecord at hp
    split at hp
    · obtain ⟨k, hk, he⟩ := Option.map_eq_some_iff.1 hp
      cases he
      obtain ⟨hc, hi⟩ := parseMode_eq_some.1 hk
      exact ⟨hc, by rw [← hi]; rfl⟩
    · cases hp
  · rintro ⟨hc, rfl⟩
    rw [ModeRecord.image_eq]
    simp only [List.cons_append, List.nil_append, parseModeRecord]
    rw [parseMode_eq_some.2 ⟨hc, (ModeRecord.image_eq m).symm⟩]
    rfl

theorem parseModes_eq (n : Nat) (bytes : List Byte) : parseModes n bytes = readMany parseModeRecord n bytes := by
  induction n generalizing bytes with
  | zero => rfl
  | succ n ih =>
    rcases bytes with - | ⟨b0, - | ⟨b1, - | ⟨b2, - | ⟨b3, - | ⟨b4, - | ⟨b5, rest⟩⟩⟩⟩⟩⟩
    · rfl
    · rfl
    · rfl
    · rfl
    · rfl
    · rfl
    · simp only [parseModes, readMany, parseModeRecord, ih]
      cases parseMode b0 b1 b2 b3 b4 b5 <;> rfl

theorem parseModes_reads (n : Nat) :
    Reads (parseModes n) (fun xs => xs.length = n ∧ ∀ x ∈ xs, x.Coded) (fun xs => xs.flatMap ModeRecord.image) := by
  rw [funext (parseModes_eq n)]
  exact parseModeRecord_reads.many n

theorem promotesAllowed_iff (modes : List ModeRecord) : promotesAllowed modes = true ↔
    ∀ (i : Nat) (m : ModeRecord), modes[i]? = some m → ∀ x, m.promote = some x →
      x ≠ i ∧ ∃ t : ModeRecord, modes[x]? = some t ∧ t.clearing = true ∧ t.acceptsUnknown = true ∧
        m.levels.count ≤ t.levels.count := by
  have one (i : Nat) (m : ModeRecord) : promoteAllowed modes i m = true ↔ ∀ x, m.promote = some x →
      x ≠ i ∧ ∃ t : ModeRecord, modes[x]? = some t ∧ t.clearing = true ∧ t.acceptsUnknown = true ∧
        m.levels.count ≤ t.levels.count := by
    cases hp : m.promote with
    | none => simp [promoteAllowed, hp]
    | some x => cases ht : modes[x]? <;> simp [promoteAllowed, hp, ht, and_assoc]
  simp only [promotesAllowed, List.all_eq_true, List.mem_range, ← one]
  constructor
  · intro h i m hm
    simpa [hm] using h i (List.getElem?_eq_some_iff.1 hm).1
  · intro h i hi
    rw [List.getElem?_eq_getElem hi]
    exact h i _ (List.getElem?_eq_getElem hi)

/-- Up to 255 modes pass step 4 exactly when they are legal (R18, R33). -/
theorem modesLegal_iff {modes : List ModeRecord} (hn : modes.length ≤ 255) : ModesLegal modes ↔
    (∀ m ∈ modes, m.Coded) ∧ promotesAllowed modes = true := by
  rw [promotesAllowed_iff]
  constructor
  · intro h
    refine ⟨fun m hm => ?_, fun i m hm => (h i m hm).promote⟩
    obtain ⟨i, hi⟩ := List.getElem?_of_mem hm
    obtain ⟨hcost, hratio, hpromote⟩ := h i m hi
    refine ⟨hcost, hratio, fun x hx => ?_⟩
    obtain ⟨-, t, ht, -⟩ := hpromote x hx
    have := (List.getElem?_eq_some_iff.1 ht).1
    omega
  · rintro ⟨hc, hp⟩ i m hm
    obtain ⟨hcost, hratio, -⟩ := hc m (List.mem_of_getElem? hm)
    exact ⟨hcost, hratio, hp i m hm⟩

/-! ## The index map (R34) -/

/-- One map entry. -/
def parseEntry : List Byte → Option (Nat × List Byte)
  | b0 :: b1 :: rest => some (word16 b0 b1, rest)
  | _ => none

theorem parseEntry_reads : Reads parseEntry (· < 65536) (bytesOf 2) := by
  intro bytes n rest
  constructor
  · intro hp
    unfold parseEntry at hp
    split at hp
    · cases hp
      exact ⟨word16_lt _ _, by rw [bytesOf_word16]; rfl⟩
    · cases hp
  · rintro ⟨hn, rfl⟩
    simp [bytesOf_two, parseEntry, word16_ofNat n hn]

theorem parseMap_eq (n : Nat) (bytes : List Byte) : parseMap n bytes = readMany parseEntry n bytes := by
  induction n generalizing bytes with
  | zero => rfl
  | succ n ih =>
    rcases bytes with - | ⟨b0, - | ⟨b1, rest⟩⟩
    · rfl
    · rfl
    · simp [parseMap, readMany, parseEntry, ih]

theorem parseMap_reads (n : Nat) :
    Reads (parseMap n) (fun xs => xs.length = n ∧ ∀ x ∈ xs, x < 65536) (fun xs => xs.flatMap (bytesOf 2)) := by
  rw [funext (parseMap_eq n)]
  exact parseEntry_reads.many n

/-- A map that the image cuts short is not read (R34). -/
theorem parseMap_short {n : Nat} {bytes : List Byte} (h : bytes.length < 2 * n) : parseMap n bytes = none := by
  rw [Option.eq_none_iff_forall_ne_some]
  rintro ⟨xs, rest⟩ hx
  obtain ⟨⟨hlen, -⟩, rfl⟩ := (parseMap_reads n _ _ _).1 hx
  simp [List.length_flatMap, hlen] at h
  omega

/-! ## Recipes (R19, R34) -/

/-- The polarity of a segment byte, in its upper two bits (R186). -/
def polarity : Drive → Nat
  | .hold => 0
  | .pos => 1
  | .neg => 2

theorem segmentImage_toNat (g : Drive × Nat) (h : g.2 ≤ 63) : (segmentImage g).toNat = polarity g.1 * 64 + g.2 := by
  obtain ⟨d, n⟩ := g
  cases d <;> exact (toNat_byteOf (by simp only at h ⊢; omega)).trans (by simp [polarity])

/-- A segment byte is read back, and counts 1 to 63 frames (R34, R186). -/
theorem parseSegment_eq_some {b : Byte} {g : Drive × Nat} :
    parseSegment b = some g ↔ (1 ≤ g.2 ∧ g.2 ≤ 63) ∧ b = segmentImage g := by
  constructor
  · intro h
    unfold parseSegment at h
    simp only at h
    split at h
    · cases h
    · rename_i hn
      have byte (d : Drive) (hq : b.toNat / 64 = polarity d) :
          (1 ≤ b.toNat % 64 ∧ b.toNat % 64 ≤ 63) ∧ b = segmentImage (d, b.toNat % 64) := by
        refine ⟨by omega, BitVec.eq_of_toNat_eq ?_⟩
        rw [segmentImage_toNat _ (by simp only; omega)]
        simp only
        omega
      split at h
      · rename_i hq; cases h; exact byte .hold hq
      · rename_i hq; cases h; exact byte .pos hq
      · rename_i hq; cases h; exact byte .neg hq
      · cases h
  · rintro ⟨⟨h1, h2⟩, rfl⟩
    have hq : (polarity g.1 * 64 + g.2) / 64 = polarity g.1 := by omega
    have hr : (polarity g.1 * 64 + g.2) % 64 = g.2 := by omega
    have h0 : g.2 ≠ 0 := by omega
    obtain ⟨d, n⟩ := g
    simp only [parseSegment, segmentImage_toNat _ h2, hq, hr, if_neg h0]
    cases d <;> rfl

/-- A run of segment bytes is read back. -/
theorem mapM_parseSegment {bytes : List Byte} {segs : List (Drive × Nat)} :
    bytes.mapM parseSegment = some segs ↔ (∀ g ∈ segs, 1 ≤ g.2 ∧ g.2 ≤ 63) ∧ bytes = segs.map segmentImage := by
  induction bytes generalizing segs with
  | nil => cases segs <;> simp
  | cons b bytes ih =>
    simp only [List.mapM_cons, Option.bind_eq_bind, Option.bind_eq_some_iff, parseSegment_eq_some, ih, Option.pure_def,
      Option.some.injEq]
    constructor
    · rintro ⟨g, ⟨hg, rfl⟩, rest, ⟨hall, rfl⟩, rfl⟩
      exact ⟨List.forall_mem_cons.2 ⟨hg, hall⟩, rfl⟩
    · rintro ⟨hall, hb⟩
      cases segs with
      | nil => cases hb
      | cons g rest =>
        rw [List.forall_mem_cons] at hall
        obtain ⟨rfl, rfl⟩ := List.cons.inj hb
        exact ⟨g, ⟨hall.1, rfl⟩, rest, ⟨hall.2, rfl⟩, rfl⟩

/-- One recipe, tested for completeness and then for form, and the bytes after it (R30, R34). -/
def parseRecipe : List Byte → Except Result (Recipe × List Byte)
  | [] => .error .sizeMismatch
  | c :: rest =>
    if rest.length < c.toNat then .error .sizeMismatch
    else if 8 < c.toNat then .error .badRecipe
    else match (rest.take c.toNat).mapM parseSegment with
      | none => .error .badRecipe
      | some segs =>
        if 255 < segmentsLength segs then .error .badRecipe
        else .ok (Recipe.ofSegments segs, rest.drop c.toNat)

theorem parsePool_succ (n : Nat) (bytes : List Byte) : parsePool (n + 1) bytes =
    (parseRecipe bytes).bind fun x => (parsePool n x.2).map fun r => (x.1 :: r.1, r.2) := by
  cases bytes with
  | nil => rfl
  | cons c rest =>
    simp only [parsePool, parseRecipe]
    by_cases hlen : rest.length < c.toNat
    · simp only [if_pos hlen, Except.bind]
    · by_cases hcount : 8 < c.toNat
      · simp only [if_neg hlen, if_pos hcount, Except.bind]
      · simp only [if_neg hlen, if_neg hcount]
        cases (rest.take c.toNat).mapM parseSegment with
        | none => rfl
        | some segs =>
          by_cases hframes : 255 < segmentsLength segs
          · simp only [if_pos hframes, Except.bind]
          · simp only [if_neg hframes, Except.bind]
            cases parsePool n (rest.drop c.toNat) <;> rfl

/-- A legal recipe keeps the length and the net of its segments (R19). -/
theorem Recipe.Legal.eq_ofSegments {r : Recipe} (h : r.Legal) : r = Recipe.ofSegments r.segments := by
  obtain ⟨segs, len, net⟩ := r
  obtain ⟨-, -, ⟨hl, -⟩, hn⟩ := h
  simp only at hl hn
  subst hl hn
  rfl

theorem Recipe.image_length (r : Recipe) : r.image.length = r.segments.length + 1 := by simp [Recipe.image]

theorem parseRecipe_eq_ok {bytes rest : List Byte} {r : Recipe} :
    parseRecipe bytes = .ok (r, rest) ↔ r.Legal ∧ bytes = r.image ++ rest := by
  constructor
  · intro h
    unfold parseRecipe at h
    split at h
    · cases h
    · rename_i c more
      split at h
      · cases h
      · rename_i hlen
        split at h
        · cases h
        · rename_i hcount
          split at h
          · cases h
          · rename_i segs hsegs
            split at h
            · cases h
            · rename_i hframes
              cases h
              obtain ⟨hall, hbytes⟩ := mapM_parseSegment.1 hsegs
              have hc : segs.length = c.toNat := by
                have := congrArg List.length hbytes
                simp only [List.length_take, List.length_map] at this
                omega
              refine ⟨⟨?_, hall, ⟨rfl, ?_⟩, rfl⟩, ?_⟩
              · exact hc ▸ Nat.not_lt.1 hcount
              · exact Nat.not_lt.1 hframes
              · rw [Recipe.image]
                simp only [Recipe.ofSegments, hc, byteOf_toNat, ← hbytes, List.cons_append, List.take_append_drop]
  · rintro ⟨hr, rfl⟩
    obtain ⟨hcount, hframes, ⟨hl, hlen⟩, -⟩ := id hr
    have hc : (byteOf r.segments.length).toNat = r.segments.length := toNat_byteOf (by omega)
    have hs : (r.segments.map segmentImage).mapM parseSegment = some r.segments := mapM_parseSegment.2 ⟨hframes, rfl⟩
    have hsum : ¬ 255 < segmentsLength r.segments := by
      rw [segmentsLength, ← hl]; omega
    rw [Recipe.image, List.cons_append, parseRecipe, hc, if_neg (by simp), if_neg (by omega)]
    rw [List.take_left' (by simp), List.drop_left' (by simp), hs]
    simp only [if_neg hsum, ← hr.eq_ofSegments]

/-- A recipe that the image cuts short, and one that is whole and illegal (R30, R34). -/
theorem parseRecipe_error {c : Byte} {more : List Byte} :
    (more.length < c.toNat → parseRecipe (c :: more) = .error .sizeMismatch) ∧
    (c.toNat ≤ more.length → (¬ ∃ r : Recipe, r.Legal ∧ r.image = c :: more.take c.toNat) →
      parseRecipe (c :: more) = .error .badRecipe) := by
  refine ⟨fun h => by rw [parseRecipe, if_pos h], fun h hn => ?_⟩
  cases hp : parseRecipe (c :: more) with
  | ok x =>
    obtain ⟨hr, hbytes⟩ := parseRecipe_eq_ok.1 hp
    refine absurd ⟨x.1, hr, ?_⟩ hn
    have hcount := hr.count
    rw [Recipe.image, List.cons_append, List.cons.injEq] at hbytes
    obtain ⟨rfl, rfl⟩ := hbytes
    rw [Recipe.image, toNat_byteOf (by omega), List.take_left' (by simp)]
  | error e =>
    unfold parseRecipe at hp
    simp only [if_neg (Nat.not_lt.2 h)] at hp
    split at hp
    · exact hp.symm
    · split at hp
      · exact hp.symm
      · split at hp
        · exact hp.symm
        · cases hp

theorem toOption_eq_some_iff {ε α : Type} {x : Except ε α} {a : α} : x.toOption = some a ↔ x = .ok a := by
  cases x <;> simp [Except.toOption]

theorem parsePool_toOption (n : Nat) (bytes : List Byte) :
    (parsePool n bytes).toOption = readMany (fun b => (parseRecipe b).toOption) n bytes := by
  induction n generalizing bytes with
  | zero => rfl
  | succ n ih =>
    rw [parsePool_succ, readMany]
    cases parseRecipe bytes with
    | error e => rfl
    | ok x =>
      refine Eq.trans ?_ (congrArg (Option.map fun r => (x.1 :: r.1, r.2)) (ih x.2))
      simp only [Except.bind]
      cases parsePool n x.2 <;> rfl

/-- Step 6: `n` legal recipes and the bytes after them. -/
theorem parsePool_eq_ok {n : Nat} {bytes rest : List Byte} {pool : List Recipe} :
    parsePool n bytes = .ok (pool, rest) ↔
      (pool.length = n ∧ ∀ r ∈ pool, r.Legal) ∧ bytes = pool.flatMap Recipe.image ++ rest := by
  have one : Reads (fun b => (parseRecipe b).toOption) Recipe.Legal Recipe.image := fun _ _ _ => by
    rw [toOption_eq_some_iff, parseRecipe_eq_ok]
  rw [← toOption_eq_some_iff, parsePool_toOption]
  exact one.many n bytes pool rest

/-- The first recipe that fails decides, whatever legal ones stand before it. -/
theorem parsePool_error_after {n : Nat} {rest : List Byte} {e : Result} (he : parsePool n rest = .error e)
    {good : List Recipe} (hg : ∀ r ∈ good, r.Legal) :
    parsePool (good.length + n) (good.flatMap Recipe.image ++ rest) = .error e := by
  induction good with
  | nil => simpa using he
  | cons r good ih =>
    rw [List.forall_mem_cons] at hg
    rw [List.length_cons, Nat.add_right_comm, parsePool_succ, List.flatMap_cons, List.append_assoc,
      parseRecipe_eq_ok.2 ⟨hg.1, rfl⟩]
    simp only [Except.bind, ih hg.2]
    rfl

theorem parsePool_error_refuses {n : Nat} {bytes : List Byte} {e : Result} (h : parsePool n bytes = .error e) :
    e = .sizeMismatch ∨ e = .badRecipe := by
  induction n generalizing bytes with
  | zero => cases h
  | succ n ih =>
    rw [parsePool_succ] at h
    cases hx : parseRecipe bytes with
    | error d =>
      rw [hx] at h
      obtain rfl : d = e := by simpa [Except.bind] using h
      cases bytes with
      | nil => exact .inl (by simpa [parseRecipe, eq_comm] using hx)
      | cons c more =>
        by_cases hlen : more.length < c.toNat
        · rw [parseRecipe_error.1 hlen] at hx
          exact .inl (by simpa [eq_comm] using hx)
        · rw [parseRecipe_error.2 (Nat.not_lt.1 hlen)] at hx
          · exact .inr (by simpa [eq_comm] using hx)
          · rintro ⟨r, hr, hi⟩
            have : parseRecipe (c :: more) = .ok (r, more.drop c.toNat) :=
              parseRecipe_eq_ok.2 ⟨hr, by rw [hi, List.cons_append, List.take_append_drop]⟩
            rw [this] at hx
            cases hx
    | ok x =>
      rw [hx] at h
      cases hp : parsePool n x.2 with
      | error d =>
        obtain rfl : d = e := by simpa [Except.bind, hp, Except.map] using h
        exact ih hp
      | ok y => simp [Except.bind, hp, Except.map] at h

end Sys2Proof.Machine
end

section
/-! The validation of a table image as a chain of its steps (R30 to R34): each step answers exactly what the bytes spell, or
fails with its code. O31: the chain accepts the images of the legal tables and no others.
-/

namespace Sys2Proof.Machine

/-! ## The steps -/

/-- A section that is read and passes its test, or fails with its code. -/
def checked {α : Type} (e : Result) (test : α → Bool) : Option (α × List Byte) → Except Result (α × List Byte)
  | none => .error e
  | some x => if test x.1 = false then .error e else .ok x

theorem checked_eq_ok {α : Type} {e : Result} {test : α → Bool} {o : Option (α × List Byte)} {x : α} {rest : List Byte} :
    checked e test o = .ok (x, rest) ↔ o = some (x, rest) ∧ test x = true := by
  cases o with
  | none => simp [checked]
  | some y =>
    by_cases ht : test y.1 = true
    · simp only [checked, ht, Bool.true_eq_false, if_false, Except.ok.injEq, Option.some.injEq]
      exact ⟨fun h => ⟨h, by rw [h] at ht; exact ht⟩, fun h => h.1⟩
    · simp only [checked, Bool.not_eq_true _ ▸ ht, if_true, Option.some.injEq, reduceCtorEq, false_iff]
      rintro ⟨rfl, hx⟩
      exact ht hx

theorem checked_error {α : Type} {e d : Result} {test : α → Bool} {o : Option (α × List Byte)}
    (h : checked e test o = .error d) : d = e := by
  unfold checked at h
  split at h
  · cases h; rfl
  · split at h
    · cases h; rfl
    · cases h

/-- What does not pass fails with the section's code. -/
theorem checked_fails {α : Type} {e : Result} {test : α → Bool} {o : Option (α × List Byte)}
    (h : ¬ ∃ x rest, o = some (x, rest) ∧ test x = true) : checked e test o = .error e := by
  cases hc : checked e test o with
  | error d => rw [checked_error hc]
  | ok x => exact absurd ⟨_, _, checked_eq_ok.1 hc⟩ h

/-- Steps 7 to 9: nothing after the pool, every entry within it, and the UNKNOWN rows driven. -/
def checkTable (t : Table) (rest : List Byte) : Except Result Table :=
  if rest ≠ [] then .error .sizeMismatch
  else if t.map.all (fun n => decide (n < t.header.recipeCount)) = false then .error .badMap
  else if unknownRowsDriven t = false then .error .unknownRowEmpty
  else .ok t

/-- Steps 6 to 9, from the pool on. -/
def checkFromPool (h : Header) (bands : List BandRecord) (modes : List ModeRecord) (map : List Nat) (bytes : List Byte) :
    Except Result Table :=
  (parsePool h.recipeCount bytes).bind fun r => checkTable ⟨h, bands, modes, map, r.1⟩ r.2

/-- Steps 5 to 9, from the index map on. -/
def checkFromMap (h : Header) (bands : List BandRecord) (modes : List ModeRecord) (bytes : List Byte) :
    Except Result Table :=
  (checked .sizeMismatch (fun _ => true) (parseMap (modesEntries h.bandCount modes) bytes)).bind fun n =>
    checkFromPool h bands modes n.1 n.2

/-- Steps 4 to 9, from the modes on. -/
def checkFromModes (h : Header) (bands : List BandRecord) (bytes : List Byte) : Except Result Table :=
  (checked .badModeRecord promotesAllowed (parseModes h.modeCount bytes)).bind fun m => checkFromMap h bands m.1 m.2

/-- Steps 3 to 9, from the bands on. -/
def checkFromBands (h : Header) (bytes : List Byte) : Except Result Table :=
  (checked .badBands bandsInOrder (parseBands h.bandCount bytes)).bind fun b => checkFromModes h b.1 b.2

/-- The validation is its steps in order; the first that fails gives its code (R30). -/
theorem validateImage_eq (img : List Byte) : validateImage img =
    (checked .badHeader (fun _ => true) (parseHeader img)).bind fun x =>
      if x.1.length ≠ img.length then .error .sizeMismatch else checkFromBands x.1 x.2 := by
  unfold validateImage
  cases parseHeader img with
  | none => rfl
  | some x =>
    by_cases hlen : x.1.length ≠ img.length
    · simp only [if_pos hlen, Except.bind, checked, Bool.true_eq_false, if_false]
    · simp only [if_neg hlen, Except.bind, checkFromBands, checkFromModes, checkFromMap, checkFromPool, checked,
        Bool.true_eq_false, if_false]
      cases parseBands x.1.bandCount x.2 with
      | none => rfl
      | some b =>
        by_cases hb : bandsInOrder b.1 = false
        · simp only [if_pos hb]
        · simp only [if_neg hb]
          cases parseModes x.1.modeCount b.2 with
          | none => rfl
          | some m =>
            by_cases hm : promotesAllowed m.1 = false
            · simp only [if_pos hm]
            · simp only [if_neg hm]
              cases parseMap (modesEntries x.1.bandCount m.1) m.2 with
              | none => rfl
              | some n =>
                simp only
                cases parsePool x.1.recipeCount n.2 <;> rfl

/-! ## What each step answers -/

theorem checkHeader_eq_ok {img rest : List Byte} {h : Header} :
    checked .badHeader (fun _ => true) (parseHeader img) = .ok (h, rest) ↔ h.Legal ∧ img = h.image ++ rest := by
  rw [checked_eq_ok, parseHeader_reads, and_iff_left rfl]

theorem checkBands_eq_ok {n : Nat} {bytes rest : List Byte} {bands : List BandRecord} :
    checked .badBands bandsInOrder (parseBands n bytes) = .ok (bands, rest) ↔
      bands.length = n ∧ BandsLegal bands ∧ bytes = bands.flatMap BandRecord.image ++ rest := by
  rw [checked_eq_ok, parseBands_reads, bandsLegal_iff]
  tauto

theorem checkModes_eq_ok {n : Nat} (hn : n ≤ 255) {bytes rest : List Byte} {modes : List ModeRecord} :
    checked .badModeRecord promotesAllowed (parseModes n bytes) = .ok (modes, rest) ↔
      modes.length = n ∧ ModesLegal modes ∧ bytes = modes.flatMap ModeRecord.image ++ rest := by
  rw [checked_eq_ok, parseModes_reads]
  constructor
  · rintro ⟨⟨⟨hlen, hc⟩, hb⟩, hp⟩
    exact ⟨hlen, (modesLegal_iff (by omega)).2 ⟨hc, hp⟩, hb⟩
  · rintro ⟨hlen, hl, hb⟩
    obtain ⟨hc, hp⟩ := (modesLegal_iff (by omega)).1 hl
    exact ⟨⟨⟨hlen, hc⟩, hb⟩, hp⟩

theorem checkMap_eq_ok {n : Nat} {bytes rest : List Byte} {map : List Nat} :
    checked .sizeMismatch (fun _ => true) (parseMap n bytes) = .ok (map, rest) ↔
      (map.length = n ∧ ∀ x ∈ map, x < 65536) ∧ bytes = map.flatMap (bytesOf 2) ++ rest := by
  rw [checked_eq_ok, parseMap_reads, and_iff_left rfl]

theorem LevelSet.mem_levels (s : LevelSet) (d : Level) : d ∈ s.levels ↔ s.holds d = true := by
  cases s <;> revert d <;> decide

/-- Step 9 asks every key of an UNKNOWN row whose recipe the table holds (R34). -/
theorem unknownRowsDriven_iff (t : Table) : unknownRowsDriven t = true ↔
    ∀ (mode : Nat) (m : ModeRecord) (band : Nat) (dest : Level) (v : Variant) (r : Recipe), t.modes[mode]? = some m →
      band < t.header.bandCount → m.levels.holds dest = true → t.lookup mode band none dest v = some r →
      1 ≤ r.length := by
  simp only [unknownRowsDriven, List.all_eq_true, List.mem_range]
  constructor
  · intro h mode m band dest v r hm hb hd hr
    have h1 := h mode (List.getElem?_eq_some_iff.1 hm).1
    rw [hm] at h1
    simp only [List.all_eq_true, List.mem_range] at h1
    have h2 := h1 band hb dest ((m.levels.mem_levels dest).2 hd) v (by cases v <;> simp)
    rw [hr] at h2
    simpa using h2
  · intro h mode hm
    rw [List.getElem?_eq_getElem hm]
    simp only [List.all_eq_true, List.mem_range]
    intro band hb dest hd v _
    cases hr : t.lookup mode band none dest v with
    | none => rfl
    | some r => simpa using h mode _ band dest v r (List.getElem?_eq_getElem hm) hb ((LevelSet.mem_levels _ dest).1 hd) hr

theorem checkTable_eq_ok {t u : Table} {rest : List Byte} : checkTable t rest = .ok u ↔
    t = u ∧ rest = [] ∧ (∀ n ∈ t.map, n < t.header.recipeCount) ∧ unknownRowsDriven t = true := by
  have hall : (∀ n ∈ t.map, n < t.header.recipeCount) ↔
      (t.map.all fun n => decide (n < t.header.recipeCount)) = true := by simp
  rw [hall]
  unfold checkTable
  by_cases hr : rest = []
  · by_cases hm : (t.map.all fun n => decide (n < t.header.recipeCount)) = true
    · by_cases hu : unknownRowsDriven t = true
      · rw [if_neg (not_not.2 hr), if_neg (by simp [hm]), if_neg (by simp [hu]), Except.ok.injEq]
        exact ⟨fun h => ⟨h, hr, hm, hu⟩, fun h => h.1⟩
      · rw [if_neg (not_not.2 hr), if_neg (by simp [hm]), if_pos (by simpa using hu)]
        exact ⟨fun h => (by cases h), fun h => absurd h.2.2.2 hu⟩
    · rw [if_neg (not_not.2 hr), if_pos (by simpa using hm)]
      exact ⟨fun h => (by cases h), fun h => absurd h.2.2.1 hm⟩
  · rw [if_pos hr]
    exact ⟨fun h => (by cases h), fun h => absurd h.2.1 hr⟩

/-! ## The chain -/

theorem bind_eq_ok_iff {ε α β : Type} {x : Except ε α} {f : α → Except ε β} {b : β} :
    x.bind f = .ok b ↔ ∃ a, x = .ok a ∧ f a = .ok b := by
  cases x <;> simp [Except.bind]

theorem bind_eq_error_iff {ε α β : Type} {x : Except ε α} {f : α → Except ε β} {e : ε} :
    x.bind f = .error e ↔ x = .error e ∨ ∃ a, x = .ok a ∧ f a = .error e := by
  cases x <;> simp [Except.bind]

theorem bind_of_ok {ε α β : Type} {x : Except ε α} {a : α} (h : x = .ok a) (f : α → Except ε β) : x.bind f = f a := by
  rw [h]; rfl

theorem bind_of_error {ε α β : Type} {x : Except ε α} {e : ε} (h : x = .error e) (f : α → Except ε β) :
    x.bind f = .error e := by
  rw [h]; rfl

section Chain

variable {h : Header} {bands : List BandRecord} {modes : List ModeRecord} {map : List Nat} {pool : List Recipe}
  {rest : List Byte}

theorem validateImage_of_header (hh : h.Legal) : validateImage (h.image ++ rest) =
    if h.length ≠ (h.image ++ rest).length then .error .sizeMismatch else checkFromBands h rest := by
  rw [validateImage_eq, bind_of_ok (checkHeader_eq_ok.2 ⟨hh, rfl⟩)]

theorem checkFromBands_of_bands (hn : bands.length = h.bandCount) (hb : BandsLegal bands) :
    checkFromBands h (bands.flatMap BandRecord.image ++ rest) = checkFromModes h bands rest :=
  bind_of_ok (checkBands_eq_ok.2 ⟨hn, hb, rfl⟩) _

theorem checkFromModes_of_modes (hh : h.Legal) (hn : modes.length = h.modeCount) (hm : ModesLegal modes) :
    checkFromModes h bands (modes.flatMap ModeRecord.image ++ rest) = checkFromMap h bands modes rest :=
  bind_of_ok ((checkModes_eq_ok (hh.modeCount.2.trans (by decide))).2 ⟨hn, hm, rfl⟩) _

theorem checkFromMap_of_map (hn : map.length = mapSize h.bandCount modes) (hm : ∀ n ∈ map, n < 65536) :
    checkFromMap h bands modes (map.flatMap (bytesOf 2) ++ rest) = checkFromPool h bands modes map rest :=
  bind_of_ok (checkMap_eq_ok.2 ⟨⟨hn, hm⟩, rfl⟩) _

theorem checkFromPool_of_pool (hn : pool.length = h.recipeCount) (hp : ∀ r ∈ pool, r.Legal) :
    checkFromPool h bands modes map (pool.flatMap Recipe.image ++ rest) = checkTable ⟨h, bands, modes, map, pool⟩ rest :=
  bind_of_ok (parsePool_eq_ok.2 ⟨⟨hn, hp⟩, rfl⟩) _

end Chain

/-- A table's image, section after section, with nothing after the pool. -/
theorem Table.image_eq (t : Table) : t.image = t.header.image ++ (t.bands.flatMap BandRecord.image ++
    (t.modes.flatMap ModeRecord.image ++ (t.map.flatMap (bytesOf 2) ++ (t.pool.flatMap Recipe.image ++ [])))) := by
  simp [Table.image]

/-- The image of a legal table passes and gives it back. -/
theorem validateImage_of_legal {t : Table} (h : t.Legal) : validateImage t.image = .ok t := by
  have entries : ∀ n ∈ t.map, n < t.header.recipeCount := fun n hn => h.recipeCount ▸ h.mapEntries n hn
  have words : ∀ n ∈ t.map, n < 65536 := fun n hn => (entries n hn).trans_le (h.header.recipeCount.2.trans (by decide))
  have unknown : unknownRowsDriven t = true := by
    refine (unknownRowsDriven_iff t).2 fun mode m band dest v r hm hb hd hr => ?_
    obtain ⟨q, hq, hlen⟩ := h.unknownRows mode m band dest v hm (h.bandCount ▸ hb) hd
    cases hr.symm.trans hq
    exact hlen
  have length : ¬ t.header.length ≠ t.image.length := not_not.2 h.length
  rw [Table.image_eq] at length ⊢
  rw [validateImage_of_header h.header, if_neg length, checkFromBands_of_bands h.bandCount.symm h.bands,
    checkFromModes_of_modes h.header h.modeCount.symm h.modes, checkFromMap_of_map (h.bandCount ▸ h.mapLength) words,
    checkFromPool_of_pool h.recipeCount.symm h.pool]
  exact checkTable_eq_ok.2 ⟨rfl, rfl, entries, unknown⟩

/-- An image that passes is that of the legal table that it gives. -/
theorem legal_of_validateImage {img : List Byte} {t : Table} (hv : validateImage img = .ok t) :
    t.Legal ∧ t.image = img := by
  rw [validateImage_eq, bind_eq_ok_iff] at hv
  obtain ⟨⟨h, r1⟩, hheader, hv⟩ := hv
  obtain ⟨hh, rfl⟩ := checkHeader_eq_ok.1 hheader
  split at hv
  · cases hv
  rename_i hlen
  obtain ⟨⟨bands, r2⟩, hbands, hv⟩ := bind_eq_ok_iff.1 hv
  obtain ⟨hbn, hbl, rfl⟩ := checkBands_eq_ok.1 hbands
  obtain ⟨⟨modes, r3⟩, hmodes, hv⟩ := bind_eq_ok_iff.1 hv
  obtain ⟨hmn, hml, rfl⟩ := (checkModes_eq_ok (hh.modeCount.2.trans (by decide))).1 hmodes
  obtain ⟨⟨map, r4⟩, hmap, hv⟩ := bind_eq_ok_iff.1 hv
  obtain ⟨⟨hnn, -⟩, rfl⟩ := checkMap_eq_ok.1 hmap
  obtain ⟨⟨pool, r5⟩, hpool, hv⟩ := bind_eq_ok_iff.1 hv
  obtain ⟨⟨hpn, hpl⟩, rfl⟩ := parsePool_eq_ok.1 hpool
  obtain ⟨rfl, rfl, hentries, hunknown⟩ := checkTable_eq_ok.1 hv
  have image := Table.image_eq ⟨h, bands, modes, map, pool⟩
  have entries : ∀ n ∈ map, n < pool.length := fun n hn => hpn ▸ hentries n hn
  refine ⟨⟨hh, hmn.symm, hbn.symm, hpn.symm, (not_not.1 hlen).trans (congrArg List.length image.symm), hbl, hml,
    by rw [hnn, hbn]; rfl, entries, hpl, fun mode m band dest v hm hb hd => ?_⟩, image⟩
  obtain ⟨r, hr⟩ := Table.lookup_some (t := ⟨h, bands, modes, map, pool⟩) hnn entries hm (hbn ▸ hb) none hd v
  exact ⟨r, hr, (unknownRowsDriven_iff _).1 hunknown mode m band dest v r hm (hbn ▸ hb) hd hr⟩

/-- Settles O31. -/
theorem tableImageRoundTrip : Obligations.TableImageRoundTrip :=
  ⟨fun _ h => validateImage_of_legal h, fun _ _ h => legal_of_validateImage h⟩

end Sys2Proof.Machine
end

section
/-! VALIDATION_END (R30 to R36, R45, R77, R82): O30. The first step that fails, section after section of the image, and what
the two endings do to the part.
-/

namespace Sys2Proof.Machine

/-! ## The step that fails -/

/-- Steps 7 to 9 fail with codes of their own, in this order (R30). -/
theorem checkTable_error {t : Table} {rest : List Byte} :
    (rest ≠ [] → checkTable t rest = .error .sizeMismatch) ∧
    (rest = [] → (∃ n ∈ t.map, t.header.recipeCount ≤ n) → checkTable t rest = .error .badMap) ∧
    (rest = [] → (∀ n ∈ t.map, n < t.header.recipeCount) → unknownRowsDriven t = false →
      checkTable t rest = .error .unknownRowEmpty) := by
  refine ⟨fun hr => if_pos hr, fun hr hm => ?_, fun hr hm hu => ?_⟩
  · rw [checkTable, if_neg (not_not.2 hr), if_pos]
    simpa using hm
  · rw [checkTable, if_neg (not_not.2 hr), if_neg, if_pos hu]
    simpa using hm

theorem checkTable_error_refuses {t : Table} {rest : List Byte} {e : Result} (h : checkTable t rest = .error e) :
    16 ≤ e.code.toNat := by
  unfold checkTable at h
  split at h
  · cases h; decide
  split at h
  · cases h; decide
  split at h
  · cases h; decide
  · cases h

/-- The code of a failing step is a refusal, so the owner's result raises REFUSED (R36, R170). -/
theorem validateImage_error_refuses {img : List Byte} {e : Result} (h : validateImage img = .error e) :
    16 ≤ e.code.toNat := by
  rw [validateImage_eq] at h
  obtain h | ⟨x, -, h⟩ := bind_eq_error_iff.1 h
  · cases checked_error h; decide
  split at h
  · cases h; decide
  obtain h | ⟨b, -, h⟩ := bind_eq_error_iff.1 h
  · cases checked_error h; decide
  obtain h | ⟨m, -, h⟩ := bind_eq_error_iff.1 h
  · cases checked_error h; decide
  obtain h | ⟨n, -, h⟩ := bind_eq_error_iff.1 h
  · cases checked_error h; decide
  obtain h | ⟨r, -, h⟩ := bind_eq_error_iff.1 h
  · obtain rfl | rfl := parsePool_error_refuses h <;> decide
  · exact checkTable_error_refuses h

section Chain

variable {h : Header} {bands : List BandRecord} {modes : List ModeRecord} {map : List Nat} {bytes : List Byte}

theorem validateImage_badHeader {img : List Byte}
    (hn : ¬ ∃ (h : Header) (rest : List Byte), h.Legal ∧ img = h.image ++ rest) :
    validateImage img = .error .badHeader := by
  rw [validateImage_eq]
  refine bind_of_error (checked_fails ?_) _
  rintro ⟨h, rest, hp, -⟩
  exact hn ⟨h, rest, (parseHeader_reads _ _ _).1 hp⟩

theorem checkFromBands_badBands (hn : ¬ ∃ bands rest, bands.length = h.bandCount ∧ BandsLegal bands ∧
    bytes = bands.flatMap BandRecord.image ++ rest) : checkFromBands h bytes = .error .badBands := by
  refine bind_of_error (checked_fails ?_) _
  rintro ⟨bands, rest, hp⟩
  exact hn ⟨bands, rest, checkBands_eq_ok.1 (checked_eq_ok.2 hp)⟩

theorem checkFromModes_badModeRecord (hh : h.Legal) (hn : ¬ ∃ modes rest, modes.length = h.modeCount ∧ ModesLegal modes ∧
    bytes = modes.flatMap ModeRecord.image ++ rest) : checkFromModes h bands bytes = .error .badModeRecord := by
  refine bind_of_error (checked_fails ?_) _
  rintro ⟨modes, rest, hp⟩
  exact hn ⟨modes, rest, (checkModes_eq_ok (hh.modeCount.2.trans (by decide))).1 (checked_eq_ok.2 hp)⟩

theorem checkFromMap_short (hs : bytes.length < 2 * mapSize h.bandCount modes) :
    checkFromMap h bands modes bytes = .error .sizeMismatch := by
  refine bind_of_error ?_ _
  rw [parseMap_short (mapSize_eq _ _ ▸ hs)]
  rfl

/-- A recipe that fails, with fewer than the header's count of legal ones before it, ends the validation (step 6). -/
theorem checkFromPool_fails {good : List Recipe} {rest : List Byte} {e : Result} (hlen : good.length < h.recipeCount)
    (hg : ∀ r ∈ good, r.Legal) (he : parseRecipe rest = .error e) :
    checkFromPool h bands modes map (good.flatMap Recipe.image ++ rest) = .error e := by
  obtain ⟨k, hk⟩ : ∃ k, h.recipeCount = good.length + (k + 1) := ⟨h.recipeCount - good.length - 1, by omega⟩
  have hfirst : parsePool (k + 1) rest = .error e := by rw [parsePool_succ, bind_of_error he]
  rw [checkFromPool, hk]
  exact bind_of_error (parsePool_error_after hfirst hg) _

end Chain

/-- A key of an UNKNOWN row with a recipe of length 0 fails step 9 (R34). -/
theorem unknownRowsDriven_eq_false {t : Table} (hu : ∃ mode m band dest v r, t.modes[mode]? = some m ∧
    band < t.header.bandCount ∧ m.levels.holds dest = true ∧ t.lookup mode band none dest v = some r ∧ r.length = 0) :
    unknownRowsDriven t = false := by
  obtain ⟨mode, m, band, dest, v, r, hm, hb, hd, hr, hlen⟩ := hu
  rw [← Bool.not_eq_true, unknownRowsDriven_iff]
  intro h
  have := h mode m band dest v r hm hb hd hr
  omega

/-! ## The two endings -/

theorem exec_validationEnd_eq (s : State) : exec .validationEnd s = execValidationEnd s := rfl

theorem exec_validationEnd_ok {owner : Port} {s : State} {t : Table} (hp : s.table.phase = .loading owner true)
    (hv : validateImage s.table.memory = .ok t) : exec .validationEnd s = .next (s.enterValid t owner).settle := by
  rw [exec_validationEnd_eq, execValidationEnd, hp]
  simp only [hv]

/-- The code is the owner's result, with REFUSED raised (R36). -/
theorem exec_validationEnd_error {owner : Port} {s : State} {code : Result} (hp : s.table.phase = .loading owner true)
    (hv : validateImage s.table.memory = .error code) :
    exec .validationEnd s = .next (((s.withTable { s.table with phase := .invalid code }).setPort owner
      { s.port owner with result := code, flags := (s.port owner).flags ||| 0x004 }).settle) := by
  have hs : exec .validationEnd s =
      .next ((s.withTable { s.table with phase := .invalid code }).setResult owner code).settle := by
    rw [exec_validationEnd_eq, execValidationEnd, hp]
    simp only [hv]
  rw [hs, State.setResult_eq, if_pos (validateImage_error_refuses hv)]
  cases owner <;> rfl

/-- The number of boundaries reached, asked of the bands themselves (R41). -/
theorem Table.count_eq (t : Table) :
    t.count = fun y : Int => (t.bands.tail.filter fun r => decide (r.lower ≤ y)).length := by
  funext y
  rw [Table.count, Table.boundaries, List.countP_map, List.countP_eq_length_filter]
  rfl

/-- A part whose table has become VALID: the owner's result, TABLE_CHANGED on both ports, the band from the last report
without hysteresis (R35, R36, R45). -/
def State.tableEntered (s : State) (t : Table) (owner : Port) : State :=
  (((s.withTable { s.table with phase := .valid, table := some t }).withTemp
    { s.temp with band := s.temp.effective.map t.count }).setPort (otherPort owner)
      { s.port (otherPort owner) with flags := (s.port (otherPort owner)).flags ||| 0x200 }).setPort owner
      { s.port owner with flags := (s.port owner).flags ||| 0x200, result := .ok }

/-- The queue's sweep asks the table that has become VALID (R82). -/
theorem State.undefinedMode_tableEntered (s : State) (t : Table) (owner : Port) (mode : Nat) :
    (s.tableEntered t owner).undefinedMode mode = decide (t.header.modeCount ≤ mode) := by
  have ht : (s.tableEntered t owner).table = { s.table with phase := .valid, table := some t } := by
    cases owner <;> rfl
  simp [State.undefinedMode, State.tableValid, ht, Table.defines, ← decide_not]

theorem State.enterValid_eq (s : State) (t : Table) (owner : Port) :
    s.enterValid t owner = (s.tableEntered t owner).sweepQueue.reconsider := by
  have hs : (((s.withTable { s.table with phase := .valid, table := some t }).setResult owner .ok).raiseBoth
      .tableChanged).withTemp { s.temp with band := s.temp.effective.map t.count } = s.tableEntered t owner := by
    cases owner <;> rfl
  rw [← hs]
  cases owner <;> rfl

/-- The sweep keeps the requests of defined modes and ends the others BAD_MODE, from head to tail (R82). -/
theorem State.sweepQueue_tableEntered (s : State) (t : Table) (owner : Port) :
    (s.tableEntered t owner).sweepQueue =
      (s.queue.filter fun q => decide (t.header.modeCount ≤ q.mode)).foldl
        (fun u q => u.appendDone q.port ⟨q.tag, .badMode, q.mode, q.mode, false, false, none⟩)
        ((s.tableEntered t owner).withQueue (s.queue.filter fun q => decide (q.mode < t.header.modeCount))) := by
  have hq : (s.tableEntered t owner).queue = s.queue := by cases owner <;> rfl
  simp only [State.sweepQueue, State.undefinedMode_tableEntered, hq, ← decide_not, Nat.not_le]
  rfl

/-- Settles O30: the two endings, then the first failing step, section after section of the image. -/
theorem validationEnd : Obligations.ValidationEnd := by
  refine ⟨fun owner s hp => ⟨fun code hv => exec_validationEnd_error hp hv, fun t hv => ?_⟩, fun img => ?_⟩
  · rw [exec_validationEnd_ok hp hv, State.enterValid_eq, State.sweepQueue_tableEntered, State.tableEntered, Table.count_eq]
  refine ⟨validateImage_badHeader, fun h rest1 hh himg => ?_⟩
  subst himg
  refine ⟨fun hlen => by rw [validateImage_of_header hh, if_pos hlen], fun hlen => ?_⟩
  have toBands : validateImage (h.image ++ rest1) = checkFromBands h rest1 := by
    rw [validateImage_of_header hh, if_neg (not_not.2 hlen)]
  rw [toBands]
  refine ⟨checkFromBands_badBands, fun bands rest2 hbn hbl hb => ?_⟩
  rw [hb, checkFromBands_of_bands hbn hbl]
  refine ⟨checkFromModes_badModeRecord hh, fun modes rest3 hmn hml hm => ?_⟩
  rw [hm, checkFromModes_of_modes hh hmn hml]
  refine ⟨checkFromMap_short, fun map rest4 hnn hnw hn => ?_⟩
  rw [hn, checkFromMap_of_map hnn hnw]
  refine ⟨fun good rest hlt hg hr => ?_, fun pool rest5 hpn hpl hp => ?_⟩
  · rw [hr]
    refine ⟨fun he => checkFromPool_fails hlt hg (by rw [he]; rfl), fun c more hc => ?_⟩
    rw [hc]
    exact ⟨fun hs => checkFromPool_fails hlt hg (parseRecipe_error.1 hs),
      fun hs hi => checkFromPool_fails hlt hg (parseRecipe_error.2 hs hi)⟩
  · rw [hp, checkFromPool_of_pool hpn hpl]
    obtain ⟨trailing, badMap, undriven⟩ := checkTable_error (t := ⟨h, bands, modes, map, pool⟩) (rest := rest5)
    exact ⟨trailing, badMap, fun hr hm hu => undriven hr hm (unknownRowsDriven_eq_false hu)⟩

end Sys2Proof.Machine
end

section
/-! Temperature reports and their bands (R40 to R44), and the shared settings (R48, R91, R106, R144, R158, R167, R173,
R177): O28 and O33. Each effect is stated for a port whose select has risen, as the end of its transaction and what the
command sets.
-/

namespace Sys2Proof.Machine

/-! ## Clamping -/

theorem clampInt_eq {lo hi : Int} (h : lo ≤ hi) (v : Int) : clampInt lo hi v = max lo (min hi v) := by
  unfold clampInt
  split
  · omega
  · split <;> omega

theorem clampNat_eq {lo hi : Nat} (h : lo ≤ hi) (v : Nat) : clampNat lo hi v = max lo (min v hi) := by
  unfold clampNat
  split
  · omega
  · split <;> omega

/-- The result is CLAMPED exactly when a value was not in its range (R177). -/
theorem clampResult_eq {changed kept : Prop} [Decidable changed] [Decidable kept] (h : changed ↔ ¬ kept) :
    clampResult (decide changed) = if kept then .ok else .clamped := by
  by_cases hk : kept <;> simp [clampResult, h, hk]

/-! ## Effects that leave their port -/

/-- An operation that neither reads nor changes the port. -/
def LeavesPort (p : Port) (f : State → State) : Prop := ∀ s v, f (s.setPort p v) = (f s).setPort p v

theorem LeavesPort.port {p : Port} {f : State → State} (hf : LeavesPort p f) (s : State) :
    (f s).port p = s.port p := by
  rw [← s.setPort_self p, hf]
  simp

/-- A result given behind such an operation ends the transaction as one given before it. -/
theorem LeavesPort.setResult_risen {p : Port} {f : State → State} (hf : LeavesPort p f) (s : State) (n : Nat)
    (r : Result) : (f (s.setPort p (s.risen p n))).setResult p r = f (s.ends p n r) := by
  rw [← State.setResult_risen, State.setResult_eq, State.setResult_eq, hf.port, ← hf]

/-- A command whose effect is known answers it, with what follows every event. -/
theorem exec_effect {i : Instr} {p : Port} {req : List Byte} {more : Bool} {n : Nat} {s t : State}
    (hi : requestOf i = some (p, req, more, n)) (h : s.takes p) (hn : if more then n ≤ req.length else req.length = n)
    (he : effectOf i (s.setPort p (s.risen p (req.length + 1))) = t) : exec i s = .next t.settle := by
  rw [exec_taken hi h hn, he]

/-! ## REPORT_TEMPERATURE -/

section Report

variable {s : State} {t : Table}

@[simp] theorem State.setPort_bandAfterReport (s : State) (p : Port) (v : PortState) (x : Int) :
    (s.setPort p v).bandAfterReport x = s.bandAfterReport x := by cases p <;> rfl

/-- Without a VALID table there is no band (R43). -/
theorem State.bandAfterReport_invalid (h : s.table.phase ≠ .valid) (x : Int) : s.bandAfterReport x = none := by
  simp [State.bandAfterReport, State.tableValid, h]

/-- A first report, or one behind a lapse, selects its band without hysteresis (R42). -/
theorem State.bandAfterReport_anew (hv : s.table.phase = .valid) (ht : s.table.table = some t)
    (hf : s.temp.freshness ≠ .fresh) (x : Int) : s.bandAfterReport x = some (t.count x) := by
  cases h : s.temp.freshness with
  | fresh => exact absurd h hf
  | _ => simp [State.bandAfterReport, State.tableValid, hv, ht, h]

theorem State.bandAfterReport_fresh {band : Nat} (hv : s.table.phase = .valid) (ht : s.table.table = some t)
    (hf : s.temp.freshness = .fresh) (hb : s.temp.band = some band) (x : Int) :
    s.bandAfterReport x = some (bandWithHysteresis t s.temp.hysteresis band x) := by
  simp [State.bandAfterReport, State.tableValid, hv, ht, hf, hb]

/-- The report is clamped, becomes FRESH and starts the stale timer; the band alone depends on the table (R40, R44). -/
theorem effectReportTemperature_risen (s : State) (p : Port) (n : Nat) (b : Byte) :
    effectReportTemperature p [b] (s.setPort p (s.risen p n)) =
      let x : Int := max (-40) (min 85 b.toInt)
      (s.ends p n (if x = b.toInt then .ok else .clamped)).withTemp
        { s.temp with freshness := .fresh, effective := some x, band := s.bandAfterReport x,
                      staleTimer := some s.temp.staleDuration } := by
  have hx : clampInt Config.minTemperature Config.maxTemperature b.toInt = max (-40) (min 85 b.toInt) :=
    clampInt_eq (by decide) _
  have hf (v : TempUnit) : LeavesPort p (State.withTemp · v) := fun _ _ => by cases p <;> rfl
  simp only [effectReportTemperature, List.head?_cons, Option.getD_some, hx, State.setPort_temp,
    State.setPort_bandAfterReport]
  rw [(hf _).setResult_risen, clampResult_eq Iff.rfl]

end Report

/-- Settles O28, by the table and the freshness before the report. -/
theorem reportTemperature : Obligations.ReportTemperature := by
  intro p s b h reported x hyst after
  have hrun : exec (.reportTemperature p [b]) s = after (s.bandAfterReport x) :=
    exec_effect (i := .reportTemperature p [b]) rfl h rfl (effectReportTemperature_risen s p 2 b)
  rw [hrun]
  refine ⟨fun hv => by rw [State.bandAfterReport_invalid hv], fun t hv ht => ?_⟩
  rw [← t.count_eq]
  exact ⟨fun hf => by rw [State.bandAfterReport_anew hv ht hf],
    fun band hf hb => by rw [State.bandAfterReport_fresh hv ht hf hb]; rfl⟩

/-! ## Words of a request -/

theorem reqWord_bytesOf_append {v : Nat} (h : v < 65536) (rest : List Byte) :
    reqWord (bytesOf 2 v ++ rest) 0 = v := by
  simp [reqWord, bytesOf_two, word16_ofNat v h]

theorem reqWord_bytesOf {v : Nat} (h : v < 65536) : reqWord (bytesOf 2 v) 0 = v := by
  simpa using reqWord_bytesOf_append h []

/-- Behind a word a request goes on with the rest. -/
theorem reqWord_append_add_two (v : Nat) (rest : List Byte) (i : Nat) :
    reqWord (bytesOf 2 v ++ rest) (i + 2) = reqWord rest i := by
  simp [reqWord, bytesOf_two]

/-! ## SET_LIMITS and SET_TIMERS -/

theorem effectSetLimits_risen (s : State) (p : Port) (n : Nat) (r w h : Byte) :
    effectSetLimits p [r, w, h] (s.setPort p (s.risen p n)) =
      ((s.ends p n (if r.toNat ≤ 127 ∧ w.toNat ≤ 15 ∧ h.toNat ≤ 5 then .ok else .clamped)).withLimits
        (min r.toNat 127) (min w.toNat 15)).withTemp { s.temp with hysteresis := min h.toNat 5 } := by
  have hf (a b : Nat) (v : TempUnit) : LeavesPort p fun u => (u.withLimits a b).withTemp v :=
    fun _ _ => by cases p <;> rfl
  have hr : reqByte [r, w, h] 0 = r.toNat := rfl
  have hw : reqByte [r, w, h] 1 = w.toNat := rfl
  have hh : reqByte [r, w, h] 2 = h.toNat := rfl
  simp only [effectSetLimits, hr, hw, hh, State.setPort_temp]
  rw [(hf _ _ _).setResult_risen, clampResult_eq (kept := r.toNat ≤ 127 ∧ w.toNat ≤ 15 ∧ h.toNat ≤ 5) (by omega)]

/-- The six durations of a SET_TIMERS, each clamped on its own (R48, R91, R158, R167). -/
def State.withTimers (s : State) (park rise fall doze stale zone : Nat) : State :=
  (((s.withSupply { s.supply with parkDuration := min park 10000, riseDuration := max 1 (min rise 255),
                                  fallDuration := max 1 (min fall 255) }).withPower
    { s.power with dozeDelay := min doze 10000 }).withTemp
    { s.temp with staleDuration := max 1 (min stale 600) }).withZoneDuration (max 100 (min zone 10000))

/-- Each of the six durations is in its range (R48, R91, R158, R167). -/
abbrev TimersKept (park rise fall doze stale zone : Nat) : Prop :=
  park ≤ 10000 ∧ (1 ≤ rise ∧ rise ≤ 255) ∧ (1 ≤ fall ∧ fall ≤ 255) ∧ doze ≤ 10000 ∧
    (1 ≤ stale ∧ stale ≤ 600) ∧ (100 ≤ zone ∧ zone ≤ 10000)

theorem leavesPort_withTimers (p : Port) (park rise fall doze stale zone : Nat) :
    LeavesPort p (State.withTimers · park rise fall doze stale zone) := fun _ _ => by cases p <;> rfl

theorem effectSetTimers_eq (s : State) (p : Port) {req : List Byte} {park rise fall doze stale zone : Nat}
    (hpark : reqWord req 0 = park) (hrise : reqWord req 2 = rise) (hfall : reqWord req 4 = fall)
    (hdoze : reqWord req 6 = doze) (hstale : reqWord req 8 = stale) (hzone : reqWord req 10 = zone) :
    effectSetTimers p req s = (s.withTimers park rise fall doze stale zone).setResult p
      (if TimersKept park rise fall doze stale zone then .ok else .clamped) := by
  have h0 (v : Nat) : clampNat 0 10000 v = min v 10000 := by rw [clampNat_eq (by decide), Nat.zero_max]
  have h1 (v : Nat) : clampNat 1 255 v = max 1 (min v 255) := clampNat_eq (by decide) v
  have h2 (v : Nat) : clampNat 1 600 v = max 1 (min v 600) := clampNat_eq (by decide) v
  have h3 (v : Nat) : clampNat 100 10000 v = max 100 (min v 10000) := clampNat_eq (by decide) v
  simp only [effectSetTimers, hpark, hrise, hfall, hdoze, hstale, hzone, h0, h1, h2, h3]
  rw [clampResult_eq (kept := TimersKept park rise fall doze stale zone) (by omega)]
  rfl

/-- The six words of a SET_TIMERS are read back as they were sent. -/
theorem effectSetTimers_risen (s : State) (p : Port) (n : Nat) {park rise fall doze stale zone : Nat}
    (hpark : park < 65536) (hrise : rise < 65536) (hfall : fall < 65536) (hdoze : doze < 65536)
    (hstale : stale < 65536) (hzone : zone < 65536) :
    effectSetTimers p (bytesOf 2 park ++ bytesOf 2 rise ++ bytesOf 2 fall ++ bytesOf 2 doze ++ bytesOf 2 stale ++
      bytesOf 2 zone) (s.setPort p (s.risen p n)) =
      (s.ends p n (if TimersKept park rise fall doze stale zone then .ok else .clamped)).withTimers
        park rise fall doze stale zone := by
  simp only [List.append_assoc]
  rw [effectSetTimers_eq (rise := rise) (fall := fall) (doze := doze) (stale := stale) (zone := zone) _ _
    (reqWord_bytesOf_append hpark _)
    (by simp only [reqWord_append_add_two, reqWord_bytesOf_append hrise])
    (by simp only [reqWord_append_add_two, reqWord_bytesOf_append hfall])
    (by simp only [reqWord_append_add_two, reqWord_bytesOf_append hdoze])
    (by simp only [reqWord_append_add_two, reqWord_bytesOf_append hstale])
    (by simp only [reqWord_append_add_two, reqWord_bytesOf hzone]),
    (leavesPort_withTimers p _ _ _ _ _ _).setResult_risen]

/-! ## SET_FRAME_MARK, SET_EVENT_ENABLE and ATTN -/

/-- The mark is taken at once while IDLE, and is pending while SCANNING (R144). -/
theorem effectSetFrameMark_risen (s : State) (p : Port) (n : Nat) {row : Nat} (h : row < 65536) :
    effectSetFrameMark p (bytesOf 2 row) (s.setPort p (s.risen p n)) =
      (s.ends p n (if row ≤ s.height - 1 then .ok else .clamped)).withScan
        (if s.scan.scanning then { s.scan with pendingMark := some (min row (s.height - 1)) }
          else { s.scan with markRow := min row (s.height - 1), pendingMark := none }) := by
  have hf (v : Scanner) : LeavesPort p (State.withScan · v) := fun _ _ => by cases p <;> rfl
  simp only [effectSetFrameMark, reqWord_bytesOf h, State.setPort_scan, State.setPort_height]
  rw [(hf _).setResult_risen, clampResult_eq (kept := row ≤ s.height - 1) (by omega)]

theorem effectSetEventEnable_taken (s : State) (p : Port) (n : Nat) {w : Nat} (h : w < 4096) :
    effectSetEventEnable p (bytesOf 2 w) (s.setPort p (s.risen p n)) =
      s.setPort p { s.ended p n .ok with enables := BitVec.ofNat 12 w } := by
  simp only [effectSetEventEnable, reqWord_bytesOf (show w < 65536 by omega), if_pos h, State.setResult_eq]
  cases p <;> rfl

/-- A value with a bit that names no flag is refused (R173). -/
theorem effectSetEventEnable_refused (s : State) (p : Port) (n : Nat) {w : Nat} (hw : w < 65536) (h : 4096 ≤ w) :
    effectSetEventEnable p (bytesOf 2 w) (s.setPort p (s.risen p n)) = s.ends p n .badParam := by
  simp only [effectSetEventEnable, reqWord_bytesOf hw, if_neg (Nat.not_lt.2 h), State.setResult_risen]

/-- Every bit of a flag word is the bit of a flag (R185). -/
theorem Flag.exists_bit (i : Fin 12) : ∃ f : Flag, f.bit = i := by
  fin_cases i
  exacts [⟨.done, rfl⟩, ⟨.doneLost, rfl⟩, ⟨.refused, rfl⟩, ⟨.overrun, rfl⟩, ⟨.lostData, rfl⟩, ⟨.supplyFault, rfl⟩,
    ⟨.halted, rfl⟩, ⟨.tempStale, rfl⟩, ⟨.zoneLapsed, rfl⟩, ⟨.tableChanged, rfl⟩, ⟨.woke, rfl⟩, ⟨.partReset, rfl⟩]

/-- A flag word that is not zero has a flag set. -/
theorem ne_zero_iff_flagSet (w : BitVec 12) : w ≠ 0 ↔ ∃ f : Flag, flagSet w f = true := by
  constructor
  · intro h
    by_contra hn
    refine h (BitVec.eq_of_getLsbD_eq fun i hi => ?_)
    obtain ⟨f, hf⟩ := Flag.exists_bit ⟨i, hi⟩
    have hc : w.getLsbD i = false := by
      rw [← Bool.not_eq_true, ← show f.bit = i from hf]
      exact fun hc => hn ⟨f, hc⟩
    simp [hc]
  · rintro ⟨f, hf⟩ rfl
    simp [flagSet] at hf

theorem State.attnLow_iff (s : State) (p : Port) : s.attnLow p = true ↔
    ∃ f : Flag, flagSet (s.port p).flags f = true ∧ flagSet (s.port p).enables f = true := by
  rw [State.attnLow, bne_iff_ne, ne_zero_iff_flagSet]
  simp [flagSet]

/-- Settles O33. -/
theorem sharedSettings : Obligations.SharedSettings := by
  refine ⟨fun p s h => ⟨fun r w hyst => ?_,
      fun park rise fall doze stale zone hpark hrise hfall hdoze hstale hzone => ?_⟩,
    fun p s row h hrow => ?_, fun p s w h hw => ⟨fun hlt => ?_, fun hge => ?_⟩, fun p s => s.attnLow_iff p⟩
  · exact exec_effect (i := .setLimits p [r, w, hyst]) rfl h rfl (effectSetLimits_risen s p 4 r w hyst)
  · have hrun := exec_effect (i := .setTimers p (bytesOf 2 park ++ bytesOf 2 rise ++ bytesOf 2 fall ++
        bytesOf 2 doze ++ bytesOf 2 stale ++ bytesOf 2 zone)) rfl h rfl
      (effectSetTimers_risen s p 13 hpark hrise hfall hdoze hstale hzone)
    refine ⟨fun hk => ?_, fun hk => ?_⟩
    · rw [hrun, if_pos hk]
      cases p <;> rfl
    · rw [hrun, if_neg hk]
      cases p <;> rfl
  · exact exec_effect (i := .setFrameMark p (bytesOf 2 row)) rfl h rfl (effectSetFrameMark_risen s p 3 hrow)
  · exact exec_effect (i := .setEventEnable p (bytesOf 2 w)) rfl h rfl (effectSetEventEnable_taken s p 3 hlt)
  · exact exec_effect (i := .setEventEnable p (bytesOf 2 w)) rfl h rfl (effectSetEventEnable_refused s p 3 hw hge)

end Sys2Proof.Machine
end

section
/-! Select edges, lapses and the start of a survey (R44, R46, R49, R77, R89, R96, R97, R161 to R163, R166): O6, O27 and
O42.
-/

namespace Sys2Proof.Machine

/-! ## What a lapse of time does -/

/-- A timer's expiry finds the part in RUN or takes it there from DOZE; any other power state stays (R163). -/
theorem State.leaveDoze_eq (s : State) : s.leaveDoze =
    s.withPower { s.power with state := if s.power.state = .doze then .run else s.power.state } := by
  unfold State.leaveDoze
  split <;> rfl

/-- The flags that a temperature raises on both ports as it goes STALE: TEMP_STALE, if it was FRESH (R44). -/
def State.staleFlags (s : State) : BitVec 12 := if s.temp.freshness = .fresh then 0x080 else 0

/-- The Temperature Unit once a FRESH temperature has gone STALE; the temperature and the band stay (R44, R49). -/
def State.staleTemp (s : State) : TempUnit :=
  if s.temp.freshness = .fresh then { s.temp with freshness := .stale, staleTimer := none } else s.temp

/-- Going STALE reaches the Temperature Unit and the flags of both ports alone. -/
theorem State.goStale_eq (s : State) : s.goStale =
    ((s.withTemp s.staleTemp).setPort .a { s.portA with flags := s.portA.flags ||| s.staleFlags }).setPort .b
      { s.portB with flags := s.portB.flags ||| s.staleFlags } := by
  by_cases h : s.temp.freshness = .fresh
  · rw [State.goStale, if_pos h, State.staleTemp, if_pos h, State.staleFlags, if_pos h, State.raiseBoth_eq]
    rfl
  · have hor (w : BitVec 12) : w ||| 0 = w := BitVec.or_zero
    rw [State.goStale, if_neg h, State.staleTemp, if_neg h, State.staleFlags, if_neg h, hor, hor]
    rfl

theorem State.goStale_fresh {s : State} (h : s.temp.freshness = .fresh) : s.goStale =
    ((s.withTemp { s.temp with freshness := .stale, staleTimer := none }).setPort .a
      { s.portA with flags := s.portA.flags ||| 0x080 }).setPort .b
      { s.portB with flags := s.portB.flags ||| 0x080 } := by
  rw [State.goStale_eq, State.staleTemp, if_pos h, State.staleFlags, if_pos h]

/-- ZONE_LAPSE of an active zone, by the operations of the model (R89). -/
theorem exec_zoneLapse_active {s : State} {z : Fin 4} {zone : Zone} (h : s.zone z = some zone) :
    exec (.zoneLapse z) s = .next (((s.leaveDoze.setZone z none).raise zone.owner .zoneLapsed).reconsider).settle := by
  have hs : exec (.zoneLapse z) s = execZoneLapse z s := rfl
  rw [hs, execZoneLapse, h]

theorem exec_staleTimerExpiry_running {s : State} (h : s.temp.staleTimer.isSome = true) :
    exec .staleTimerExpiry s = .next s.leaveDoze.goStale.settle := if_pos h

/-- Settles O27. -/
theorem timedLapses : Obligations.TimedLapses := by
  refine ⟨fun z zone s hz => ?_, fun s hf ht => ?_⟩
  · rw [exec_zoneLapse_active hz, State.leaveDoze_eq, State.raise_eq, State.setZone_port, State.withPower_port]
    rfl
  · rw [exec_staleTimerExpiry_running ht, State.leaveDoze_eq, State.goStale_fresh (by exact hf)]
    rfl

/-! ## The start of a survey -/

theorem exec_surveyStart_idle {s : State} {l : LaneId} {rest : List LaneId} (hw : s.survey = none)
    (hl : s.surveyList = l :: rest) :
    exec .surveyStart s =
      let L := s.lane l
      let m := s.modeRecord L.requestedMode
      .next ((((s.setLane l { L with state := .survey, band := s.surveyBand.1, stale := s.surveyBand.2 }).withSurveyList
        rest).withSurvey (some ⟨l, some (L.rect.x0, L.rect.y0), s.residueLimit, s.wearLimit, m,
          m.promote.map s.modeRecord, none⟩)).settle) := by
  have hs : exec .surveyStart s = execSurveyStart s := rfl
  rw [hs, execSurveyStart, hw, hl]
  rfl

/-- A survey under a FRESH temperature takes the current band (R46). -/
theorem State.surveyBand_fresh {s : State} (h : s.temp.freshness = .fresh) : s.surveyBand = (s.temp.band, false) := by
  rw [State.surveyBand, h]

/-- Under any other it takes the stale band, and says so (R46). -/
theorem State.surveyBand_stale {s : State} (h : s.temp.freshness ≠ .fresh) :
    s.surveyBand = (s.table.table.map fun t => t.header.staleBand, true) := by
  unfold State.surveyBand
  split
  · rename_i hf
    exact absurd hf h
  · rfl

/-- Settles O42. -/
theorem surveyStart : Obligations.SurveyStart := by
  intro s l rest hw hl L m after
  rw [exec_surveyStart_idle hw hl]
  exact ⟨fun hf => by rw [State.surveyBand_fresh hf], fun hf => by rw [State.surveyBand_stale hf]⟩

/-! ## SELECT_FALL -/

/-- A port whose record of bytes clocked out starts empty (Log 6). -/
def PortState.recordEmptied (q : PortState) : PortState := { q with dataOut := [], outCount := 0, outMark := 0 }

/-- READY reads nothing of the record. -/
theorem State.ready_recordEmptied (s : State) (p : Port) :
    (s.setPort p (s.port p).recordEmptied).ready p = s.ready p := by cases p <;> rfl

/-- READY is low in WAKING (R166). -/
theorem State.ready_waking {s : State} (h : s.power.state = .waking) (p : Port) : s.ready p = false := by
  simp [State.ready, h]

theorem exec_selectFall_closed {s : State} {p : Port} (h : (s.port p).txn = .closed) :
    exec (.selectFall p) s = .next (s.selectFalls p).settle := by
  have hs : exec (.selectFall p) s = execSelectFall p s := rfl
  rw [hs, execSelectFall, if_pos (by simpa [State.selectHigh] using h)]

/-- Outside INIT and SLEEP a transaction begins and the doze timer stops; DOZE is left for RUN (R162, R163). -/
theorem State.selectFalls_awake {s : State} (p : Port) (hi : s.power.state ≠ .init) (hs : s.power.state ≠ .sleep) :
    s.selectFalls p =
      (s.setPort p { (s.port p).recordEmptied with txn := .opened (s.ready p) }).withPower
        { s.power with state := if s.power.state = .doze then .run else s.power.state, dozeTimer := none } := by
  have hr : (s.setPort p { s.port p with dataOut := [], outCount := 0, outMark := 0 }).ready p = s.ready p :=
    s.ready_recordEmptied p
  cases hp : s.power.state with
  | init => exact absurd hp hi
  | sleep => exact absurd hp hs
  | _ => simp [State.selectFalls, hp, hr, PortState.recordEmptied]

/-- In INIT the transaction will be discarded (R161). -/
theorem State.selectFalls_init {s : State} (p : Port) (h : s.power.state = .init) :
    s.selectFalls p = s.setPort p { (s.port p).recordEmptied with txn := .discarded } := by
  simp [State.selectFalls, h, PortState.recordEmptied]

/-- What a wake leaves of the port whose select fell: its transaction is discarded with result WOKE (R166). -/
def PortState.woken (q : PortState) : PortState :=
  { q with txn := .discarded, consent := false, result := .woke, flags := q.flags ||| 0x400 }

/-- The wake before its temperature goes STALE: WAKING, both consents cleared, WOKE on the port alone (R166). -/
theorem State.wake_eq (s : State) (p : Port) : s.wake p =
    (((s.withPower { s.power with state := .waking, dozeTimer := none }).setPort p (s.port p).woken).setPort
      (otherPort p) { s.port (otherPort p) with consent := false }).goStale := by
  cases p <;> rfl

/-- In SLEEP the falling edge is the wake (R49, R166). -/
theorem State.selectFalls_sleep {s : State} (p : Port) (h : s.power.state = .sleep) :
    s.selectFalls p =
      (((s.withPower { s.power with state := .waking, dozeTimer := none }).withTemp s.staleTemp).setPort p
        { (s.port p).recordEmptied.woken with flags := (s.port p).flags ||| 0x400 ||| s.staleFlags }).setPort
        (otherPort p) { s.port (otherPort p) with
          consent := false, flags := (s.port (otherPort p)).flags ||| s.staleFlags } := by
  have hs : s.selectFalls p = (s.setPort p (s.port p).recordEmptied).wake p := by
    simp [State.selectFalls, h, PortState.recordEmptied]
  rw [hs, State.wake_eq, State.goStale_eq]
  cases p <;> rfl

/-- Settles O6, by the power state in which the select falls. -/
theorem selectFall : Obligations.SelectFall := by
  intro p s h q stale
  rw [exec_selectFall_closed h]
  refine ⟨fun hp => ?_, fun hp => ?_, fun hp => ?_, fun hp => ?_⟩
  · rcases hp with hp | hp
    · rw [State.selectFalls_awake p (by simp [hp]) (by simp [hp]), if_neg (by simp [hp]), hp]
      rfl
    · rw [State.selectFalls_awake p (by simp [hp]) (by simp [hp]), if_pos hp]
      rfl
  · rw [State.selectFalls_awake p (by simp [hp]) (by simp [hp]), State.ready_waking hp, if_neg (by simp [hp])]
    rfl
  · rw [State.selectFalls_init p hp]
    rfl
  · rw [State.selectFalls_sleep p hp]
    rfl

end Sys2Proof.Machine
end

section
/-! Pixel writes (R61 to R64): O16 and O17. The pixels of a data byte are placed one after another; what they make of the
port is said at once, by the walk of the window from the cursor on.
-/

namespace Sys2Proof.Machine

/-! ## The walk of a window -/

@[simp] theorem Rect.walk_zero (r : Rect) (c : Option Pos) : r.walk c 0 = [] := by cases c <;> rfl

@[simp] theorem Rect.walk_none (r : Rect) (n : Nat) : r.walk none n = [] := by cases n <;> rfl

@[simp] theorem Rect.walked_zero (r : Rect) (c : Option Pos) : r.walked c 0 = c := by cases c <;> rfl

@[simp] theorem Rect.walked_none (r : Rect) (n : Nat) : r.walked none n = none := by cases n <;> rfl

theorem Rect.walk_length_le (r : Rect) (c : Option Pos) (n : Nat) : (r.walk c n).length ≤ n := by
  induction n generalizing c with
  | zero => simp
  | succ n ih =>
    cases c with
    | none => simp
    | some x => simpa [Rect.walk] using ih (r.nextPos x)

theorem unpackByte_length (f : PixelFormat) (b : Byte) : (unpackByte f b).length = f.perByte := by cases f <;> rfl

/-! ## The pixels of a data byte -/

/-- The port of a pixel write once pixels of these levels have been placed from the cursor on; those past the window's end
are ignored with OVERRUN (R62). -/
def PortState.placed (q : PortState) (w h : Nat) (lost beyond : Bool) (levels : List Level) : PortState :=
  let places := q.ctx.window.walk q.ctx.cursor levels.length
  let past := decide (places.length < levels.length)
  { q with
    txn := .writing lost (beyond || past)
    stream := q.stream ++ List.zipWith (fun x v => Entry.pixel (toPanel q.ctx w h x) v) places levels
    ctx := { q.ctx with cursor := q.ctx.window.walked q.ctx.cursor levels.length }
    flags := if past then q.flags ||| 0x008 else q.flags }

theorem State.placePixel_some {s : State} {p : Port} {x : Pos} (hc : (s.port p).ctx.cursor = some x) (v : Level) :
    State.placePixel p s v = s.setPort p { s.port p with
      stream := (s.port p).stream ++ [.pixel (toPanel (s.port p).ctx s.width s.height x) v]
      ctx := { (s.port p).ctx with cursor := (s.port p).ctx.window.nextPos x } } := by
  simp [State.placePixel, hc, State.pushEntry, State.mapContext, State.panelPos]

theorem State.placePixel_none {s : State} {p : Port} {lost beyond : Bool} (hc : (s.port p).ctx.cursor = none)
    (ht : (s.port p).txn = .writing lost beyond) (v : Level) :
    State.placePixel p s v = s.setPort p { s.port p with
      txn := .writing lost true, flags := (s.port p).flags ||| 0x008 } := by
  have hbit : BitVec.twoPow 12 Flag.overrun.bit = 8#12 := rfl
  simp [State.placePixel, hc, State.ignorePixel, State.raise_eq, ht, hbit]

theorem State.placePixels_eq (p : Port) (levels : List Level) (s : State) (lost beyond : Bool)
    (ht : (s.port p).txn = .writing lost beyond) :
    levels.foldl (State.placePixel p) s = s.setPort p ((s.port p).placed s.width s.height lost beyond levels) := by
  induction levels generalizing s beyond with
  | nil =>
    simp only [PortState.placed, List.length_nil, Rect.walk_zero, Rect.walked_zero, List.zipWith_nil_left, List.append_nil,
      Nat.lt_irrefl, decide_false, Bool.or_false, Bool.false_eq_true, if_false, ← ht]
    exact (s.setPort_self p).symm
  | cons v vs ih =>
    rw [List.foldl_cons]
    cases hc : (s.port p).ctx.cursor with
    | none =>
      rw [State.placePixel_none hc ht, ih _ true (by simp)]
      simp [PortState.placed, hc, BitVec.or_assoc]
    | some x =>
      rw [State.placePixel_some hc, ih _ beyond (by simpa using ht)]
      simp [PortState.placed, hc, Rect.walk, Rect.walked, toPanel]

/-- A data byte of a pixel write that is discarded whole (R64). -/
theorem State.discardPixelByte_eq {s : State} {p : Port} {lost beyond : Bool} (ht : (s.port p).txn = .writing lost beyond) :
    s.discardPixelByte p = s.setPort p { s.port p with
      txn := .writing true beyond, dataOut := (s.port p).dataOut ++ [0], flags := (s.port p).flags ||| 0x010 } := by
  have hbit : BitVec.twoPow 12 Flag.lostData.bit = 16#12 := rfl
  simp [State.discardPixelByte, State.raise_eq, ht, hbit]

/-- A data byte of a pixel write that is taken (R62, R63). -/
theorem State.takePixelByte_eq {s : State} {p : Port} {lost beyond : Bool} (ht : (s.port p).txn = .writing lost beyond)
    (b : Byte) : s.takePixelByte p b = s.setPort p
      { (s.port p).placed s.width s.height lost beyond (unpackByte (s.port p).ctx.format b) with
        dataOut := (s.port p).dataOut ++ [(s.port p).response[(s.port p).outCount]?.getD 0]
        outCount := (s.port p).outCount + 1 } := by
  rw [State.takePixelByte, State.placePixels_eq _ _ _ lost beyond (by simpa [State.sendResponseByte] using ht)]
  simp [State.sendResponseByte, PortState.placed]

/-- Settles O17. -/
theorem pixelDataByte : Obligations.PixelDataByte := by
  intro p s b lost beyond ht
  refine ⟨fun hr => ?_, fun hr => ⟨?_, ?_⟩⟩
  · simp only [exec, execPixelDataByte, ht, hr, if_true, State.takePixelByte_eq ht]
    rfl
  · simp only [exec, execPixelDataByte, ht, hr, Bool.false_eq_true, if_false, State.discardPixelByte_eq ht]
  · simp only [exec, execPixelByteDiscarded, ht, hr, Bool.false_eq_true, if_false, State.discardPixelByte_eq ht]

/-! ## READY -/

/-- The room that READY asks for by the transaction under way (R61). -/
theorem PortState.ready_iff (q : PortState) : q.ready = true ↔
    (∀ lost beyond, q.txn = .writing lost beyond → q.ctx.cursor = none ∨
      q.stream.length + q.ctx.format.perByte ≤ 64) ∧
    (∀ r, q.txn = .reading r → q.stream = [] ∧ (r.dummySent = false ∨ r.pos = none ∨ 2 ≤ r.granted.length)) ∧
    ((∀ lost beyond, q.txn ≠ .writing lost beyond) → (∀ r, q.txn ≠ .reading r) → q.stream.length < 64) := by
  have pixels (n : Nat) : decide (n ≤ Config.streamCapacity) = true ↔ n ≤ 64 := decide_eq_true_iff
  have entry : decide (q.stream.length < Config.streamCapacity) = true ↔ q.stream.length < 64 := decide_eq_true_iff
  unfold PortState.ready
  cases ht : q.txn with
  | writing lost beyond => simp [pixels]
  | reading r => simp [or_assoc]
  | closed => simp [entry]
  | opened heard => simp [entry]
  | discarded => simp [entry]

theorem State.ready_iff (s : State) (p : Port) : s.ready p = true ↔ s.power.state ≠ .init ∧ s.power.state ≠ .waking ∧
    s.power.geometrySweep = false ∧ s.power.resetWait = false ∧ s.table.phase ≠ .loading p true ∧
    (s.port p).ready = true := by
  simp [State.ready, State.validatingFor, and_assoc]

/-! ## The code and the rise of a streaming command -/

section Code

variable {s : State} {p : Port}

/-- The code of a streaming command, taken while READY is high (R62, R63, R66). -/
theorem State.takeCode_ready {heard : Bool} (ht : (s.port p).txn = .opened heard) (hr : s.ready p = true)
    (begin : PortState → PortState) : s.takeCode p begin = (s.setPort p (begin { s.port p with
      dataOut := (s.port p).dataOut ++ [(s.port p).response[(s.port p).outCount]?.getD 0]
      outCount := (s.port p).outCount + 1 })).settle := by
  simp [State.takeCode, s.opened_of_open p (by simp [ht]), ht, hr, State.sendResponseByte]

/-- A byte of a transaction whose command is not known, clocked while READY is low (R61; Log 6). -/
theorem State.clockUntaken_low {heard : Bool} (ht : (s.port p).txn = .opened heard) (hr : s.ready p = false) :
    s.clockUntaken p = s.setPort p { s.port p with
      dataOut := (s.port p).dataOut ++ [0]
      outMark := if heard then (s.port p).outMark else (s.port p).dataOut.length + 1 } := by
  simp [State.clockUntaken, ht, hr, State.clockZeros]

theorem State.takeCode_low {heard : Bool} (ht : (s.port p).txn = .opened heard) (hr : s.ready p = false)
    (begin : PortState → PortState) : s.takeCode p begin = s.clockUntaken p := by
  simp [State.takeCode, s.opened_of_open p (by simp [ht]), ht, hr]

/-- The rise of a pixel write (R62); held while a geometry sweep runs when no byte of it was lost (R61; Log 22). -/
theorem State.endWrite_eq {lost beyond : Bool} (ht : (s.port p).txn = .writing lost beyond) :
    let q := { s.port p with txn := .closed, consent := false, response := [] }
    let r : Result := if lost then .lostData else if beyond then .overrun else .ok
    s.endWrite p = if s.power.geometrySweep = true ∧ lost = false then
      s.setPort p { q with held := q.held ++ [.writeEnd r] } else s.setPort p { q with result := r } := by
  have hcode : (writeResult lost beyond).code.toNat < 16 := by cases lost <;> cases beyond <;> decide
  by_cases hs : s.power.geometrySweep = true ∧ lost = false
  · simp [State.endWrite, ht, State.closeStream, State.hold, hs, writeResult]
  · have hs' : (s.power.geometrySweep && !lost) = false := by simpa using hs
    simp [State.endWrite, ht, State.closeStream, hs, hs', State.setResult_eq, Nat.not_le.2 hcode]
    rfl

/-- The rise of a READ_PIXELS (R66). -/
theorem State.endRead_eq {r : Readback} (ht : (s.port p).txn = .reading r) :
    s.endRead p = s.setPort p { s.port p with
      txn := .closed, consent := false, response := [], result := if r.beyond then .overrun else .ok } := by
  have hcode : (if r.beyond then Result.overrun else .ok).code.toNat < 16 := by cases r.beyond <;> decide
  simp [State.endRead, ht, State.closeStream, State.setResult_eq, Nat.not_le.2 hcode]

end Code

/-- Settles O16: READY is read off its definition; a code is taken or clocked out as zero by READY, and a rise sets the
result. -/
theorem pixelCommand : Obligations.PixelCommand := by
  refine ⟨fun p s => ?_, fun p s heard ht => ⟨fun hr => ⟨?_, ?_, ?_, fun hh => ?_⟩, fun hr i b hi => ?_⟩,
    fun p s => ⟨fun lost beyond ht => ⟨?_, ?_⟩, fun r ht => ?_⟩⟩
  · have h := s.ready_iff p
    rw [PortState.ready_iff] at h
    exact h
  · exact congrArg _ (State.takeCode_ready ht hr _)
  · exact congrArg _ (State.takeCode_ready ht hr _)
  · exact congrArg _ (State.takeCode_ready ht hr _)
  · subst hh
    simp [exec, execReadbackByte, ht, hr, State.takeAhead_eq]
  · rw [← State.clockUntaken_low ht hr]
    simp only [List.mem_cons, List.not_mem_nil, or_false] at hi
    obtain rfl | rfl | rfl | rfl | rfl | rfl := hi
    · exact congrArg _ (State.takeCode_low ht hr _)
    · exact congrArg _ (State.takeCode_low ht hr _)
    · exact congrArg _ (State.takeCode_low ht hr _)
    · simp [exec, execPixelDataByte, ht]
    · simp [exec, execPixelByteDiscarded, ht]
    · cases heard <;> simp [exec, execReadbackByte, ht, hr]
  · exact congrArg (fun t => Host.Outcome.next (State.settle t)) (State.endWrite_eq ht)
  · exact congrArg (fun t => Host.Outcome.next (State.settle t)) (State.endWrite_eq ht)
  · exact congrArg (fun t => Host.Outcome.next (State.settle t)) (State.endRead_eq ht)

end Sys2Proof.Machine
end

section
/-! The queues and their bounds (R59, R61, R72, R74, R175): the invariant port by port, with a place for the moment at the
end of a geometry sweep when the held transactions are still to be taken, and what the operations of the model make of it.
-/

namespace Sys2Proof.Machine

/-! ## The invariant, port by port -/

/-- The bounds of one port. It may hold transactions while a geometry sweep runs, or `late`, when they are just to be taken
at the sweep's end (R61). -/
structure PortQueues (late : Prop) (sweep : Bool) (p : Port) (q : PortState) : Prop where
  stream : q.stream.length ≤ 64
  room : q.txn = .opened true → q.stream.length < 64
  held : q.held ≠ [] → (late ∨ sweep = true) ∧ q.txn ≠ .opened true
  heldCommand : ∀ i, Held.command i ∈ q.held → portOfCommand i = some p ∧ q.stream.length < 64
  heldFirst : ∀ i, Held.command i ∉ q.held.tail
  owner : ∀ r ∈ q.stream.filterMap Entry.request, r.port = p
  done : q.done.length ≤ 16

/-- `QueuesSound`, but that the ports that are `late` may hold transactions without a sweep. -/
structure QueuesWithin (late : Port → Prop) (s : State) : Prop where
  port : ∀ p, PortQueues (late p) s.power.geometrySweep p (s.port p)
  places : s.queue.length + (s.streamRequests .a).length + (s.streamRequests .b).length ≤ 24
  share : ∀ p, s.queue.countP (fun q => decide (q.port = p)) + (s.streamRequests p).length ≤ 16

/-- The requests of a stream are those of its submit entries (R59). -/
theorem mem_requests (l : List Entry) (r : Request) : r ∈ l.filterMap Entry.request ↔ Entry.submit r ∈ l := by
  rw [List.mem_filterMap]
  constructor
  · rintro ⟨e, he, hr⟩
    cases e with
    | submit q => cases hr; exact he
    | pixel x v => cases hr
    | fill x v n => cases hr
  · exact fun h => ⟨_, h, rfl⟩

theorem queuesSound_iff (s : State) : QueuesSound s ↔ QueuesWithin (fun _ => False) s := by
  constructor
  · intro h
    exact ⟨fun p => ⟨h.stream p, h.room p, fun hh => ⟨.inr (h.held p hh).1, (h.held p hh).2⟩, h.heldCommand p,
      h.heldFirst p, fun r hr => h.owner p r ((mem_requests _ r).1 hr), h.done p⟩, h.places, h.share⟩
  · intro h
    exact ⟨fun p => (h.port p).stream, fun p => (h.port p).room,
      fun p hh => ⟨((h.port p).held hh).1.resolve_left id, ((h.port p).held hh).2⟩, fun p => (h.port p).heldCommand,
      fun p => (h.port p).heldFirst, fun p q hq => (h.port p).owner q ((mem_requests _ q).2 hq),
      fun p => (h.port p).done, h.places, h.share⟩

namespace PortQueues

variable {late : Prop} {sweep : Bool} {p : Port} {q v : PortState}

/-- A port stays within its bounds when its stream and done queue do not grow, nothing is held anew and its transaction
does not come to have its bytes taken. -/
theorem shrink (h : PortQueues late sweep p q) (length : v.stream.length ≤ q.stream.length)
    (requests : (v.stream.filterMap Entry.request).Sublist (q.stream.filterMap Entry.request))
    (held : v.held = q.held ∨ v.held = []) (done : v.done.length ≤ 16)
    (txn : v.txn = q.txn ∨ v.txn ≠ .opened true) : PortQueues late sweep p v := by
  have opened (ht : v.txn = .opened true) : q.txn = .opened true := by
    rcases txn with e | e
    · rw [← e]; exact ht
    · exact absurd ht e
  have kept (hn : v.held ≠ []) : v.held = q.held := held.resolve_right hn
  refine ⟨length.trans h.stream, fun ht => length.trans_lt (h.room (opened ht)), fun hn => ?_, fun i hi => ?_, fun i hi => ?_,
    fun r hr => h.owner r (requests.subset hr), done⟩
  · obtain ⟨h1, h2⟩ := h.held (kept hn ▸ hn)
    exact ⟨h1, fun ht => h2 (opened ht)⟩
  · rw [kept (List.ne_nil_of_mem hi)] at hi
    exact ⟨(h.heldCommand i hi).1, length.trans_lt (h.heldCommand i hi).2⟩
  · rw [kept fun e => by simp [e] at hi] at hi
    exact h.heldFirst i hi

/-- The same with stream and done queue as they were. -/
theorem keep (h : PortQueues late sweep p q) (stream : v.stream = q.stream) (held : v.held = q.held ∨ v.held = [])
    (done : v.done = q.done) (txn : v.txn = q.txn ∨ v.txn ≠ .opened true) : PortQueues late sweep p v :=
  h.shrink (by rw [stream]) (by rw [stream]) held (by rw [done]; exact h.done) txn

end PortQueues

namespace QueuesWithin

variable {late : Port → Prop} {s t : State}

/-! ## Changes that keep the bounds -/

/-- What leaves every port within its bounds and adds no request keeps the places (R74). -/
theorem goOn (h : QueuesWithin late s) (port : ∀ p, PortQueues (late p) t.power.geometrySweep p (t.port p))
    (queue : t.queue.Sublist s.queue) (requests : ∀ p, (t.streamRequests p).Sublist (s.streamRequests p)) :
    QueuesWithin late t := by
  refine ⟨port, ?_, fun p => ?_⟩
  · have := h.places
    have := queue.length_le
    have := (requests .a).length_le
    have := (requests .b).length_le
    omega
  · have := h.share p
    have := queue.countP_le (p := fun q => decide (q.port = p))
    have := (requests p).length_le
    omega

/-- Ports, queue and sweep are all that the bounds read. -/
theorem same (h : QueuesWithin late s) (portA : t.portA = s.portA) (portB : t.portB = s.portB) (queue : t.queue = s.queue)
    (sweep : t.power.geometrySweep = s.power.geometrySweep) : QueuesWithin late t := by
  have port (p : Port) : t.port p = s.port p := by cases p <;> assumption
  refine h.goOn (fun p => ?_) (by rw [queue]) fun p => by rw [State.streamRequests, port]; rfl
  rw [port, sweep]
  exact h.port p

theorem withTable (h : QueuesWithin late s) (v : TableUnit) : QueuesWithin late (s.withTable v) := h.same rfl rfl rfl rfl
theorem withTemp (h : QueuesWithin late s) (v : TempUnit) : QueuesWithin late (s.withTemp v) := h.same rfl rfl rfl rfl
theorem withSupply (h : QueuesWithin late s) (v : Supply) : QueuesWithin late (s.withSupply v) := h.same rfl rfl rfl rfl
theorem withScan (h : QueuesWithin late s) (v : Scanner) : QueuesWithin late (s.withScan v) := h.same rfl rfl rfl rfl
theorem withLimits (h : QueuesWithin late s) (r w : Nat) : QueuesWithin late (s.withLimits r w) := h.same rfl rfl rfl rfl
theorem withGeometry (h : QueuesWithin late s) (w k : Nat) : QueuesWithin late (s.withGeometry w k) := h.same rfl rfl rfl rfl
theorem withZoneDuration (h : QueuesWithin late s) (v : Nat) : QueuesWithin late (s.withZoneDuration v) :=
  h.same rfl rfl rfl rfl
theorem withArmingList (h : QueuesWithin late s) (v : List LaneId) : QueuesWithin late (s.withArmingList v) :=
  h.same rfl rfl rfl rfl
theorem withLastGrant (h : QueuesWithin late s) (v : Requester) : QueuesWithin late (s.withLastGrant v) :=
  h.same rfl rfl rfl rfl
theorem withSurvey (h : QueuesWithin late s) (v : Option Survey) : QueuesWithin late (s.withSurvey v) :=
  h.same rfl rfl rfl rfl
theorem withRetire (h : QueuesWithin late s) (v : Option RetireWalk) : QueuesWithin late (s.withRetire v) :=
  h.same rfl rfl rfl rfl
theorem withRetireList (h : QueuesWithin late s) (v : List LaneId) : QueuesWithin late (s.withRetireList v) :=
  h.same rfl rfl rfl rfl
theorem setZone (h : QueuesWithin late s) (z : Fin 4) (v : Option Zone) : QueuesWithin late (s.setZone z v) :=
  h.same rfl rfl rfl rfl

theorem withPower (h : QueuesWithin late s) (v : PowerUnit) (hv : v.geometrySweep = s.power.geometrySweep) :
    QueuesWithin late (s.withPower v) := h.same rfl rfl rfl hv

theorem withQueue (h : QueuesWithin late s) (v : List Request) (hv : v.Sublist s.queue) : QueuesWithin late (s.withQueue v) :=
  h.goOn (fun p => by simpa using h.port p) hv fun p => by simp [State.streamRequests]

theorem setPort (h : QueuesWithin late s) (p : Port) (v : PortState)
    (port : PortQueues (late p) s.power.geometrySweep p v)
    (requests : (v.stream.filterMap Entry.request).Sublist (s.streamRequests p)) : QueuesWithin late (s.setPort p v) := by
  refine h.goOn (fun k => ?_) (by simp) fun k => ?_
  · rw [State.setPort_power, State.setPort_port]
    split
    · rename_i hk; rw [hk]; exact port
    · exact h.port k
  · rw [State.streamRequests_setPort]
    split
    · rename_i hk; rw [hk]; exact requests
    · exact List.Sublist.refl _

/-- A port that keeps its stream and done queue, holds nothing anew and opens no transaction. -/
theorem keepPort (h : QueuesWithin late s) (p : Port) (v : PortState) (stream : v.stream = (s.port p).stream)
    (held : v.held = (s.port p).held ∨ v.held = []) (done : v.done = (s.port p).done)
    (txn : v.txn = (s.port p).txn ∨ v.txn ≠ .opened true) : QueuesWithin late (s.setPort p v) :=
  h.setPort p v ((h.port p).keep stream held done txn) (by rw [stream]; exact List.Sublist.refl _)

/-- While a sweep runs any port may hold transactions. -/
theorem sweeping (h : QueuesWithin late s) (hs : s.power.geometrySweep = true) (k : Port → Prop) : QueuesWithin k s :=
  ⟨fun p =>
    { h.port p with held := fun hh => ⟨.inr hs, ((h.port p).held hh).2⟩ }, h.places, h.share⟩

theorem relax (h : QueuesWithin late s) {k : Port → Prop} (hk : ∀ p, late p → k p) : QueuesWithin k s :=
  ⟨fun p =>
    { h.port p with held := fun hh => ⟨((h.port p).held hh).1.imp_left (hk p), ((h.port p).held hh).2⟩ }, h.places, h.share⟩

/-! ## Results, flags and done records -/

theorem setResult (h : QueuesWithin late s) (p : Port) (r : Result) : QueuesWithin late (s.setResult p r) := by
  rw [State.setResult_eq]
  exact h.keepPort p _ rfl (.inl rfl) rfl (.inl rfl)

theorem raise (h : QueuesWithin late s) (p : Port) (f : Flag) : QueuesWithin late (s.raise p f) :=
  h.keepPort p _ rfl (.inl rfl) rfl (.inl rfl)

theorem raiseBoth (h : QueuesWithin late s) (f : Flag) : QueuesWithin late (s.raiseBoth f) := (h.raise .a f).raise .b f

/-- A done record joins only a queue of fewer than 16 (R175). -/
theorem appendDone (h : QueuesWithin late s) (p : Port) (d : DoneRecord) : QueuesWithin late (s.appendDone p d) := by
  rw [State.appendDone_eq]
  split
  · rename_i hd
    exact h.setPort p _ ((h.port p).shrink (Nat.le_refl _) (List.Sublist.refl _) (.inl rfl) (by simp; omega) (.inl rfl))
      (List.Sublist.refl _)
  · exact h.keepPort p _ rfl (.inl rfl) rfl (.inl rfl)

/-! ## Lanes, their lists and the engines -/

theorem setLane (h : QueuesWithin late s) (l : LaneId) (v : Lane) : QueuesWithin late (s.setLane l v) := h.same rfl rfl rfl rfl

theorem mapLane (h : QueuesWithin late s) (l : LaneId) (f : Lane → Lane) : QueuesWithin late (s.mapLane l f) :=
  h.setLane l _

theorem reportLane (h : QueuesWithin late s) (l : LaneId) (d : DoneRecord) : QueuesWithin late (s.reportLane l d) := by
  unfold State.reportLane
  split
  · exact h.appendDone _ d
  · exact h

theorem endPending (h : QueuesWithin late s) (o : UpdateOutcome) (l : LaneId) :
    QueuesWithin late (State.endPending o s l) := (h.reportLane l _).same rfl rfl rfl rfl

theorem closeSurvey (h : QueuesWithin late s) : QueuesWithin late s.closeSurvey := by
  unfold State.closeSurvey
  split
  · exact h.same rfl rfl rfl rfl
  · exact h

theorem joinRetire (h : QueuesWithin late s) (k : RetireKind) (o : UpdateOutcome) (l : LaneId) :
    QueuesWithin late (State.joinRetire k o s l) := h.same rfl rfl rfl rfl

theorem startRetire (h : QueuesWithin late s) : QueuesWithin late s.startRetire := by
  obtain ⟨w, hw, -⟩ := s.startRetire_eq
  rw [hw]
  exact h.same rfl rfl rfl rfl

/-- An allocation takes its request out of the queue (R79). -/
theorem reconsider (h : QueuesWithin late s) : QueuesWithin late s.reconsider :=
  State.reconsider_keeps (QueuesWithin late)
    (fun t i _ _ ht _ _ _ => (ht.withQueue (t.queue.eraseIdx i) (List.eraseIdx_sublist _ _)).same rfl rfl rfl rfl) s h

theorem foldl {α : Type} (f : State → α → State) (hf : ∀ t a, QueuesWithin late t → QueuesWithin late (f t a)) (ls : List α)
    (h : QueuesWithin late s) : QueuesWithin late (ls.foldl f s) := foldl_keeps _ f hf ls s h

theorem silence (h : QueuesWithin late s) (mine : Port → Bool) (l : LaneId) : QueuesWithin late (State.silence mine s l) := by
  unfold State.silence
  split
  · exact h.mapLane l _
  · exact h

theorem endLanes (h : QueuesWithin late s) (mine : Port → Bool) : QueuesWithin late (s.endLanes mine) := by
  have silenced := foldl (State.silence mine) (fun _ l ht => ht.silence mine l) laneIds h
  have ended := foldl (State.endPending .withdrawn) (fun _ l ht => ht.endPending .withdrawn l)
    ((laneIds.foldl (State.silence mine) s).lanesOf mine .pending) silenced
  unfold State.endLanes
  refine startRetire ?_
  refine foldl _ (fun _ l ht => ht.mapLane l _) _ ?_
  refine withArmingList ?_ _
  refine foldl _ (fun _ l ht => ht.joinRetire _ _ l) _ ?_
  split
  · exact ended
  · exact ended.closeSurvey

theorem faultRunning (h : QueuesWithin late s) : QueuesWithin late s.faultRunning :=
  foldl _ (fun _ l ht => ht.joinRetire _ _ l) _ h

theorem haltLanes (h : QueuesWithin late s) : QueuesWithin late s.haltLanes := by
  unfold State.haltLanes
  refine reconsider (foldl _ (fun _ l ht => ht.endPending _ l) _ ?_)
  exact (foldl _ (fun _ l ht => ht.joinRetire _ _ l) _ h.closeSurvey).withArmingList []

theorem trip (h : QueuesWithin late s) (cause : TripCause) : QueuesWithin late (s.trip cause) := by
  have faulted : QueuesWithin late (s.withSupply (s.supply.trip cause)).faultRunning := (h.withSupply _).faultRunning
  have idle := (faulted.withScan (s.withSupply (s.supply.trip cause)).faultRunning.scan.toIdle).raiseBoth .supplyFault
  unfold State.trip
  refine startRetire ?_
  split
  · exact (idle.raiseBoth .halted).haltLanes
  · exact idle

theorem withdrawLane (h : QueuesWithin late s) (p : Port) (l : LaneId) : QueuesWithin late (s.withdrawLane p l) := by
  unfold State.withdrawLane
  split
  · exact ((h.endPending _ l).reconsider).setResult p _
  · exact ((h.closeSurvey.joinRetire _ _ l).startRetire).setResult p _
  · exact (((h.withArmingList _).joinRetire _ _ l).startRetire).setResult p _
  · exact (h.mapLane l _).setResult p _
  · exact h.setResult p _
  · exact h.setResult p _

theorem admitLane (h : QueuesWithin late s) (ls : List LaneId) : QueuesWithin late (s.admitLane ls) :=
  (foldl _ (fun _ l ht => ht.mapLane l _) ls h).withArmingList _

theorem advance (h : QueuesWithin late s) : QueuesWithin late s.advance := by
  refine foldl _ (fun t l ht => ?_) _ h
  have hm := ht.mapLane l fun r => { r with frameIndex := r.frameIndex + 1 }
  unfold State.advanceLane
  simp only
  split
  · exact hm.joinRetire _ _ l
  · split
    · exact hm.joinRetire _ _ l
    · exact hm

theorem drive (h : QueuesWithin late s) (visits : Pos → Bool) : QueuesWithin late (s.drive visits) := by
  obtain ⟨lanes, hd, -⟩ := s.drive_eq visits
  rw [hd]
  exact h.same rfl rfl rfl rfl

theorem finishVisit (h : QueuesWithin late s) (w : Survey) (x : Pos) (v : Level) : QueuesWithin late (s.finishVisit w x v) := by
  refine same (s := s.visitRecord w x v) ?_ rfl rfl rfl rfl
  unfold State.visitRecord
  simp only
  split
  · exact h.mapLane _ _
  · exact h.mapLane _ _
  · exact h.mapLane _ _
  · exact h
  · exact same (h.mapLane w.lane (s.claimCounts w (s.pixel x) (quantize w.mode.levels v))) rfl rfl rfl rfl

theorem raiseOnDemand (h : QueuesWithin late s) : QueuesWithin late s.raiseOnDemand := by
  obtain ⟨v, hv⟩ := s.raiseOnDemand_eq
  rw [hv]
  exact h.same rfl rfl rfl rfl

theorem sweepQueue (h : QueuesWithin late s) : QueuesWithin late s.sweepQueue :=
  foldl _ (fun _ _ ht => ht.appendDone _ _) _ (h.withQueue _ List.filter_sublist)

theorem freeZones (h : QueuesWithin late s) (mine : Port → Bool) : QueuesWithin late (s.freeZones mine) := by
  obtain ⟨v, hv, -⟩ := s.freeZones_eq mine
  rw [hv]
  exact h.same rfl rfl rfl rfl

theorem endOwned (h : QueuesWithin late s) (mine : Port → Bool) (q : List Request)
    (hq : q.Sublist (s.endLanes mine).queue) : QueuesWithin late (s.endOwned mine q) :=
  ((h.endLanes mine).withQueue q hq).freeZones mine

end QueuesWithin

end Sys2Proof.Machine
end

section
/-! The queues and their bounds through the events of the link (R61, R161 to R171): a transaction comes to have its bytes
taken only while READY is high, and is held only at its rise, so that only the first that a port holds is a command.
-/

namespace Sys2Proof.Machine

/-- No port is late: the bounds are those of `QueuesSound`. -/
def onTime : Port → Prop := fun _ => False

/-- Outside its pixel transactions a port whose READY is high has room for an entry (R61). -/
theorem State.ready_room {s : State} {p : Port} (hr : s.ready p = true)
    (hw : ∀ lost beyond, (s.port p).txn ≠ .writing lost beyond) (hd : ∀ r, (s.port p).txn ≠ .reading r) :
    (s.port p).stream.length < 64 :=
  ((PortState.ready_iff _).1 ((s.ready_iff p).1 hr).2.2.2.2.2).2.2 hw hd

namespace QueuesWithin

variable {late : Port → Prop} {s : State}

/-! ## After every event -/

/-- No port holds transactions without a sweep (R61). -/
theorem held_nil (h : QueuesWithin onTime s) (hg : s.power.geometrySweep = false) (p : Port) : (s.port p).held = [] := by
  by_contra hn
  rcases ((h.port p).held hn).1 with hl | hl
  · exact hl
  · rw [hg] at hl; exact absurd hl (by simp)

/-- A transaction that meets READY high finds room for an entry, and nothing held (R61). -/
theorem opens (h : QueuesWithin onTime s) {p : Port} (hr : s.ready p = true) (room : (s.port p).stream.length < 64)
    {v : PortState} (stream : v.stream = (s.port p).stream) (held : v.held = (s.port p).held)
    (done : v.done = (s.port p).done) : PortQueues (onTime p) s.power.geometrySweep p v := by
  have hnil : v.held = [] := held.trans (h.held_nil (State.ready_sweep hr) p)
  exact ⟨by rw [stream]; exact room.le, fun _ => by rw [stream]; exact room, fun hn => absurd hnil hn,
    fun i hi => by simp [hnil] at hi, fun i hi => by simp [hnil] at hi, by rw [stream]; exact (h.port p).owner,
    by rw [done]; exact (h.port p).done⟩

theorem noteReady (h : QueuesWithin onTime s) (p : Port) : QueuesWithin onTime (s.noteReady p) := by
  unfold State.noteReady
  split
  · rename_i ht
    split
    · rename_i hr
      exact h.setPort p _ (h.opens hr (State.ready_room hr (by simp [ht]) (by simp [ht])) rfl rfl rfl)
        (List.Sublist.refl _)
    · exact h
  · exact h

theorem endResetWait (h : QueuesWithin late s) : QueuesWithin late s.endResetWait := by
  unfold State.endResetWait
  split
  · exact h.same rfl rfl rfl rfl
  · exact h

theorem judgePower (h : QueuesWithin late s) : QueuesWithin late s.judgePower :=
  h.same (s.judgePower_port .a) (s.judgePower_port .b) s.judgePower_queue (LinkOnly.judgePower s).sweep

theorem settle (h : QueuesWithin onTime s) : QueuesWithin onTime s.settle :=
  ((h.endResetWait.noteReady .a).noteReady .b).judgePower

/-! ## Select edges -/

theorem selectFalls (h : QueuesWithin onTime s) {p : Port} (hc : (s.port p).txn = .closed) :
    QueuesWithin onTime (s.selectFalls p) := by
  by_cases hi : s.power.state = .init
  · rw [State.selectFalls_init p hi]
    exact h.keepPort p _ rfl (.inl rfl) rfl (.inr (by simp))
  · by_cases hs : s.power.state = .sleep
    · rw [State.selectFalls_sleep p hs]
      have woken := keepPort (s := (s.withPower { s.power with state := .waking, dozeTimer := none }).withTemp s.staleTemp)
        (h.same rfl rfl rfl rfl) p
        { (s.port p).recordEmptied.woken with flags := (s.port p).flags ||| 0x400 ||| s.staleFlags }
        (by cases p <;> rfl) (.inl (by cases p <;> rfl)) (by cases p <;> rfl) (.inr (by simp [PortState.woken]))
      refine woken.keepPort (otherPort p) _ ?_ (.inl ?_) ?_ (.inl ?_) <;> cases p <;> rfl
    · rw [State.selectFalls_awake p hi hs]
      refine same (s := s.setPort p _) ?_ rfl rfl rfl (by simp)
      cases hr : s.ready p with
      | false => exact h.keepPort p _ rfl (.inl rfl) rfl (.inr (by simp))
      | true =>
        exact h.setPort p _ (h.opens hr (State.ready_room hr (by simp [hc]) (by simp [hc])) rfl rfl rfl)
          (List.Sublist.refl _)

theorem opened (h : QueuesWithin onTime s) (p : Port) : QueuesWithin onTime (s.opened p) := by
  unfold State.opened
  split
  · rename_i hc
    exact (h.selectFalls (by simpa [State.selectHigh] using hc)).settle
  · exact h

/-! ## Rises -/

theorem clockZeros (h : QueuesWithin late s) (p : Port) (n : Nat) : QueuesWithin late (s.clockZeros p n) :=
  h.keepPort p _ rfl (.inl rfl) rfl (.inl rfl)

theorem clockUntaken (h : QueuesWithin late s) (p : Port) : QueuesWithin late (s.clockUntaken p) := by
  rcases s.clockUntaken_eq p with hc | ⟨-, hc⟩ | ⟨_, -, -, hc⟩ <;> rw [hc]
  · exact h
  · exact h.keepPort p _ rfl (.inl rfl) rfl (.inl rfl)
  · exact h.keepPort p _ rfl (.inl rfl) rfl (.inl rfl)

theorem closeTransaction (h : QueuesWithin late s) (p : Port) (n : Nat) : QueuesWithin late (s.closeTransaction p n) :=
  h.keepPort p _ rfl (.inl rfl) rfl (.inr (by simp))

theorem closeDiscarded (h : QueuesWithin late s) (p : Port) (n : Nat) : QueuesWithin late (s.closeDiscarded p n) :=
  (h.clockZeros p n).keepPort p _ rfl (.inl rfl) rfl (.inr (by simp))

theorem closeStream (h : QueuesWithin late s) (p : Port) : QueuesWithin late (s.closeStream p) :=
  h.keepPort p _ rfl (.inl rfl) rfl (.inr (by simp))

theorem refuseFrame (h : QueuesWithin late s) (p : Port) (fr : Frame) : QueuesWithin late (s.refuseFrame p fr) := by
  unfold State.refuseFrame
  refine setResult ?_ p _
  split
  · exact h.keepPort p _ rfl (.inl rfl) rfl (.inl rfl)
  · exact h

/-- A transaction is held during a sweep, once its select is high: a command with room for its entry behind nothing, any
other behind what is held (R61, R168). -/
theorem hold (h : QueuesWithin late s) (p : Port) (x : Held) (sweep : s.power.geometrySweep = true)
    (txn : (s.port p).txn ≠ .opened true) (command : ∀ i, x = .command i →
      (s.port p).held = [] ∧ portOfCommand i = some p ∧ (s.port p).stream.length < 64) : QueuesWithin late (s.hold p x) := by
  have hp := h.port p
  refine h.setPort p _ ⟨hp.stream, hp.room, fun _ => ⟨.inr sweep, txn⟩, fun i hi => ?_, fun i hi => ?_, hp.owner, hp.done⟩
    (List.Sublist.refl _)
  · rcases List.mem_append.1 hi with hi | hi
    · exact hp.heldCommand i hi
    · exact (command i (List.mem_singleton.1 hi).symm).2
  · cases hl : (s.port p).held with
    | nil => simp [hl] at hi
    | cons y ys =>
      simp only [hl, List.cons_append, List.tail_cons, List.mem_append, List.mem_singleton] at hi
      rcases hi with hi | hi
      · exact hp.heldFirst i (by rw [hl]; exact hi)
      · exact absurd (command i hi.symm).1 (by simp [hl])

theorem refuseUntaken (h : QueuesWithin late s) (p : Port) (n : Nat) : QueuesWithin late (s.refuseUntaken p n) := by
  have hc := (h.clockZeros p n).closeTransaction p 0
  unfold State.refuseUntaken
  simp only
  split
  · rename_i hs
    simp only [Bool.and_eq_true] at hs
    exact hc.hold p _ hs.1 (by simp [State.closeTransaction]) (by simp)
  · exact hc.refuseFrame p _

theorem riseWithoutCode (h : QueuesWithin late s) (p : Port) : QueuesWithin late (s.riseWithoutCode p) := by
  unfold State.riseWithoutCode
  split
  · exact h.refuseUntaken p 0
  · exact h.closeDiscarded p 0
  · exact h

theorem endWrite (h : QueuesWithin late s) (p : Port) : QueuesWithin late (s.endWrite p) := by
  unfold State.endWrite
  split
  · simp only
    split
    · rename_i hs
      simp only [Bool.and_eq_true] at hs
      exact (h.closeStream p).hold p _ hs.1 (by simp [State.closeStream]) (by simp)
    · exact (h.closeStream p).setResult p _
  · exact h.riseWithoutCode p

theorem endRead (h : QueuesWithin late s) (p : Port) : QueuesWithin late (s.endRead p) := by
  unfold State.endRead
  split
  · exact (h.closeStream p).setResult p _
  · exact h.riseWithoutCode p

/-! ## Bytes -/

theorem sendResponseByte (h : QueuesWithin late s) (p : Port) : QueuesWithin late (s.sendResponseByte p) :=
  h.keepPort p _ rfl (.inl rfl) rfl (.inl rfl)

theorem takeCode (h : QueuesWithin onTime s) (p : Port) (f : PortState → PortState) (stream : ∀ q, (f q).stream = q.stream)
    (held : ∀ q, (f q).held = q.held) (done : ∀ q, (f q).done = q.done) (txn : ∀ q, (f q).txn ≠ .opened true) :
    QueuesWithin onTime (s.takeCode p f) := by
  have ho := h.opened p
  unfold State.takeCode
  simp only
  split
  · split
    · exact ((ho.sendResponseByte p).keepPort p _ (stream _) (.inl (held _)) (done _) (.inr (txn _))).settle
    · exact ho.clockUntaken p
  · exact ho.clockUntaken p

theorem discardPixelByte (h : QueuesWithin late s) (p : Port) {lost beyond : Bool}
    (ht : (s.port p).txn = .writing lost beyond) : QueuesWithin late (s.discardPixelByte p) := by
  rw [State.discardPixelByte_eq ht]
  exact h.keepPort p _ rfl (.inl rfl) rfl (.inr (by simp))

theorem requests_pixels (f : Pos → Pos) (places : List Pos) (levels : List Level) :
    (List.zipWith (fun x v => Entry.pixel (f x) v) places levels).filterMap Entry.request = [] := by
  induction places generalizing levels with
  | nil => rfl
  | cons x xs ih =>
    cases levels with
    | nil => rfl
    | cons v vs => simpa [Entry.request] using ih vs

/-- READY is high only with room for every pixel of a byte, or past the window's end (R61, R62). -/
theorem takePixelByte (h : QueuesWithin onTime s) (p : Port) (b : Byte) {lost beyond : Bool}
    (ht : (s.port p).txn = .writing lost beyond) (hr : s.ready p = true) : QueuesWithin onTime (s.takePixelByte p b) := by
  have hnil := h.held_nil (State.ready_sweep hr) p
  have hp := h.port p
  have places : ((s.port p).ctx.window.walk (s.port p).ctx.cursor
      (unpackByte (s.port p).ctx.format b).length).length + (s.port p).stream.length ≤ 64 := by
    rcases ((PortState.ready_iff _).1 ((s.ready_iff p).1 hr).2.2.2.2.2).1 lost beyond ht with hc | hc
    · simpa [hc] using hp.stream
    · rw [unpackByte_length]
      have := (s.port p).ctx.window.walk_length_le (s.port p).ctx.cursor (s.port p).ctx.format.perByte
      omega
  rw [State.takePixelByte_eq ht]
  refine h.setPort p _ ⟨?_, fun hc => ?_, fun hn => absurd hnil hn, fun i hi => ?_, fun i hi => ?_, fun r hrq => ?_, hp.done⟩ ?_
  · simp only [PortState.placed, List.length_append, List.length_zipWith]
    omega
  · simp [PortState.placed] at hc
  · simp [PortState.placed, hnil] at hi
  · simp [PortState.placed, hnil] at hi
  · simp only [PortState.placed, List.filterMap_append, requests_pixels, List.append_nil] at hrq
    exact hp.owner r hrq
  · simp only [PortState.placed, List.filterMap_append, requests_pixels, List.append_nil]
    exact List.Sublist.refl _

end QueuesWithin

end Sys2Proof.Machine
end

section
/-! The queues and their bounds through the effects of the link's commands (R61, R65, R72, R84, R176, R179, R180): FILL_WINDOW
and SUBMIT_UPDATE alone add an entry, each to a stream that had room when its bytes were taken.
-/

namespace Sys2Proof.Machine

/-- A port that a command of its own finds at its rise: nothing held, select high, room for an entry (R61). -/
structure PortState.Receives (q : PortState) : Prop where
  held : q.held = []
  txn : q.txn ≠ .opened true
  room : q.stream.length < 64

theorem parseSubmit_port {p : Port} {req : List Byte} {q : Request} (h : parseSubmit p req = some q) : q.port = p := by
  unfold parseSubmit at h
  split at h
  · split at h
    · simp only at h
      split at h
      · cases h
      · cases h; rfl
    · cases h
  · cases h

namespace QueuesWithin

variable {late : Port → Prop} {s : State}

/-! ## Entries -/

/-- An entry joins a stream with room for it; a request among them needs its place (R59, R72). -/
theorem pushEntry (h : QueuesWithin late s) (p : Port) (e : Entry) (hp : (s.port p).Receives)
    (place : ∀ q, e.request = some q → q.port = p ∧ s.placesHeld + 1 ≤ 24 ∧ s.placesOf p + 1 ≤ 16) :
    QueuesWithin late (s.pushEntry p e) := by
  have port : PortQueues (late p) s.power.geometrySweep p { s.port p with stream := (s.port p).stream ++ [e] } := by
    refine ⟨by simpa using hp.room, fun ht => absurd ht hp.txn, fun hn => absurd hp.held hn, fun i hi => ?_, fun i hi => ?_,
      fun r hr => ?_, (h.port p).done⟩
    · rw [hp.held] at hi; exact absurd hi (by simp)
    · rw [hp.held] at hi; exact absurd hi (by simp)
    · rw [List.filterMap_append, List.mem_append] at hr
      rcases hr with hr | hr
      · exact (h.port p).owner r hr
      · simp only [List.mem_filterMap, List.mem_singleton] at hr
        obtain ⟨_, rfl, hr⟩ := hr
        exact (place r hr).1
  cases hr : e.request with
  | none =>
    refine h.setPort p _ port ?_
    rw [List.filterMap_append]
    simp [hr, State.streamRequests]
  | some q =>
    obtain ⟨-, held, share⟩ := place q hr
    have requests (k : Port) : ((s.pushEntry p e).streamRequests k).length =
        (s.streamRequests k).length + if k = p then 1 else 0 := by
      rw [State.pushEntry, State.mapPort_eq, State.streamRequests_setPort]
      split
      · rename_i hk
        subst hk
        simp [hr, State.streamRequests]
      · rfl
    refine ⟨fun k => ?_, ?_, fun k => ?_⟩
    · rw [State.pushEntry, State.mapPort_eq, State.setPort_power, State.setPort_port]
      split
      · rename_i hk; rw [hk]; exact port
      · exact h.port k
    · rw [requests, requests]
      simp only [State.placesHeld] at held
      cases p <;> simp [State.pushEntry] <;> omega
    · rw [requests]
      have := h.share k
      split
      · rename_i hk
        rw [hk]
        simp only [State.placesOf] at share
        simpa [State.pushEntry, Nat.add_assoc] using share
      · simpa [State.pushEntry] using this

theorem fillWindow (h : QueuesWithin late s) {p : Port} (hp : (s.port p).Receives) (req : List Byte) :
    QueuesWithin late (effectFillWindow p req s) := by
  unfold effectFillWindow
  split
  · split
    · exact (h.pushEntry p _ hp (by simp [Entry.request])).setResult p _
    · exact h.setResult p _
  · exact h.setResult p _

theorem submitUpdate (h : QueuesWithin late s) {p : Port} (hp : (s.port p).Receives) (req : List Byte) :
    QueuesWithin late (effectSubmitUpdate p req s) := by
  unfold effectSubmitUpdate
  split
  · exact h.setResult p _
  · rename_i q hq
    split
    · exact h.setResult p _
    · split
      · exact h.setResult p _
      · split
        · exact h.setResult p _
        · rename_i hfull
          simp only [Config.queuePlaces, Config.portPlaces, not_or, Nat.not_lt] at hfull
          refine (h.pushEntry p _ hp fun r hr => ?_).setResult p _
          cases hr
          have hport := parseSubmit_port hq
          exact ⟨hport, hfull⟩

/-- The request is taken out of where it is found (R84). -/
theorem withdraw (h : QueuesWithin late s) (p : Port) (req : List Byte) : QueuesWithin late (effectWithdraw p req s) := by
  unfold effectWithdraw
  simp only
  split
  · exact h.setResult p _
  · split
    · have erased : ((s.port p).stream.eraseP (Entry.hasTag (req.head?.getD 0).toNat)).Sublist (s.port p).stream :=
        List.eraseP_sublist
      refine appendDone (h.setPort p _ ?_ (erased.filterMap _)) p _ |>.setResult p _
      exact (h.port p).shrink erased.length_le (erased.filterMap _) (.inl rfl) (h.port p).done (.inl rfl)
    · split
      · exact (((h.withQueue _ List.eraseP_sublist).appendDone p _).reconsider).setResult p _
      · split
        · exact h.withdrawLane p _
        · exact h.setResult p _

/-! ## Contexts, queries, geometry and resets -/

theorem mapContext (h : QueuesWithin late s) (p : Port) (f : PortContext → PortContext) :
    QueuesWithin late (s.mapContext p f) := h.keepPort p _ rfl (.inl rfl) rfl (.inl rfl)

theorem answer (h : QueuesWithin late s) (p : Port) (data : List Byte) (own : PortState → PortState)
    (stream : (own (s.port p)).stream = (s.port p).stream) (held : (own (s.port p)).held = (s.port p).held)
    (done : (own (s.port p)).done.length ≤ (s.port p).done.length) (txn : (own (s.port p)).txn = (s.port p).txn) :
    QueuesWithin late (s.answer p data own) := by
  have owned : QueuesWithin late (s.mapPort p own) := by
    refine h.setPort p _ ((h.port p).shrink (by rw [stream]) (by rw [stream]) (.inl held) ?_ (.inl txn)) ?_
    · exact done.trans (h.port p).done
    · rw [stream]; exact List.Sublist.refl _
  exact (owned.setResult p .ok).keepPort p _ rfl (.inl rfl) rfl (.inl rfl)

/-- A sweep that begins only widens what may be held (R67). -/
theorem beginSweep (h : QueuesWithin late s) (v : PowerUnit) (hv : v.geometrySweep = true) :
    QueuesWithin late (s.withPower v) :=
  ⟨fun p => by
    rw [State.withPower_port]
    exact { h.port p with held := fun hn => ⟨.inr hv, ((h.port p).held hn).2⟩ },
    by simpa [State.streamRequests] using h.places, by simpa [State.streamRequests] using h.share⟩

theorem setGeometry (h : QueuesWithin late s) (p : Port) (req : List Byte) :
    QueuesWithin late (effectSetGeometry p req s) := by
  unfold effectSetGeometry
  simp only
  split
  · exact h.setResult p _
  · split
    · exact h.setResult p _
    · exact (((h.withGeometry _ _).beginSweep _ (by rfl)).withScan _).setResult p _

theorem cleared (h : QueuesWithin late s) (p : Port) (w k : Nat) : QueuesWithin late (s.mapPort p fun q => q.cleared w k) :=
  h.setPort p _ ((h.port p).shrink (Nat.zero_le _) (List.nil_sublist _) (.inr rfl) (Nat.zero_le _) (.inl rfl))
    (List.nil_sublist _)

theorem portReset (h : QueuesWithin late s) (p : Port) (req : List Byte) : QueuesWithin late (effectPortReset p req s) := by
  rw [effectPortReset_eq]
  exact (((h.endOwned _ _ List.filter_sublist).withTable _).cleared p _ _).reconsider

theorem resetSettings (h : QueuesWithin late s) : QueuesWithin late s.resetSettings :=
  (((((((h.withZoneDuration _).withLimits _ _).withTemp _).withTable _).withSupply _).withScan _).withLastGrant _).withPower _
    (by rfl)

/-- A transaction under way is abandoned (R69). -/
theorem abandon (h : QueuesWithin late s) (p : Port) :
    QueuesWithin late (s.mapPort p fun q => { q with txn := q.txn.abandoned }) := by
  refine h.keepPort p _ rfl (.inl rfl) rfl (.inr ?_)
  rcases (s.port p).txn.abandoned_closed with ht | ht <;> simp [ht]

theorem partReset (h : QueuesWithin late s) (p : Port) (req : List Byte) : QueuesWithin late (effectPartReset p req s) := by
  rw [effectPartReset_eq]
  have reset := (h.endOwned (fun _ => true) [] (List.nil_sublist _)).resetSettings
  exact ((((reset.cleared .a _ _).cleared .b _ _).abandon (otherPort p)).raiseBoth .partReset).reconsider

/-! ## Every effect -/

theorem effect (h : QueuesWithin late s) (i : Instr) (hp : ∀ p, portOfCommand i = some p → (s.port p).Receives) :
    QueuesWithin late (effectOf i s) := by
  cases i with
  | setWindow p r =>
    simp only [effectOf, effectSetWindow]
    split
    · exact (h.mapContext p _).setResult p _
    · exact h.setResult p _
  | setFormat p r =>
    simp only [effectOf, effectSetFormat]
    split
    · exact (h.mapContext p _).setResult p _
    · exact h.setResult p _
  | setOrientation p r =>
    simp only [effectOf, effectSetOrientation]
    split
    · exact (h.mapContext p _).setResult p _
    · exact h.setResult p _
  | fillWindow p r => exact h.fillWindow (hp p rfl) r
  | submitUpdate p r => exact h.submitUpdate (hp p rfl) r
  | withdraw p r => exact h.withdraw p r
  | reserveZone p r =>
    simp only [effectOf, effectReserveZone]
    split
    · exact h.setResult p _
    · split
      · exact h.setResult p _
      · split
        · exact h.setResult p _
        · exact (h.setZone _ _).setResult p _
  | releaseZone p r =>
    simp only [effectOf, effectReleaseZone]
    split
    · exact h.setResult p _
    · split
      · exact h.setResult p _
      · split
        · exact ((h.setZone _ _).reconsider).setResult p _
        · exact h.setResult p _
  | reportTemperature p r => exact (h.withTemp _).setResult p _
  | tableBegin p r =>
    have start {t : State} (ht : QueuesWithin late t) : QueuesWithin late
        ((t.withTable { phase := .loading p false, memory := [], received := 0, table := none }).setResult p .ok) :=
      (ht.withTable _).setResult p _
    simp only [effectOf, effectTableBegin]
    split
    · exact h.setResult p _
    · split
      · split
        · exact start h
        · exact h.setResult p _
      · exact start ((h.withTemp _).raiseBoth _)
      · exact start h
  | tableData p r =>
    simp only [effectOf, effectTableData]
    split
    · split
      · split
        · exact (h.withTable _).setResult p _
        · exact (h.withTable _).setResult p _
      · exact h.setResult p _
    · exact h.setResult p _
  | tableEnd p r =>
    simp only [effectOf, effectTableEnd]
    split
    · split
      · exact (h.withTable _).setResult p _
      · exact h.setResult p _
    · exact h.setResult p _
  | tableAbort p r =>
    simp only [effectOf, effectTableAbort]
    split
    · refine setResult ?_ p _
      split
      · exact (h.withTable _).setResult _ _
      · exact h.withTable _
    · exact h.setResult p _
  | getTableInfo p r => exact h.answer p _ id rfl rfl (Nat.le_refl _) rfl
  | setGeometry p r => exact h.setGeometry p r
  | setLimits p r => exact ((h.withLimits _ _).withTemp _).setResult p _
  | setTimers p r =>
    exact ((((h.withSupply _).withPower _ (by rfl)).withTemp _).withZoneDuration _).setResult p _
  | setFrameMark p r => exact (h.withScan _).setResult p _
  | getEvents p r => exact h.answer p _ _ rfl rfl (Nat.le_refl _) rfl
  | setEventEnable p r =>
    simp only [effectOf, effectSetEventEnable]
    split
    · refine setResult ?_ p _
      exact h.keepPort p _ rfl (.inl rfl) rfl (.inl rfl)
    · exact h.setResult p _
  | getDone p r =>
    simp only [effectOf, effectGetDone]
    split
    · rename_i d rest hd
      exact h.answer p _ _ rfl rfl (by simp [hd]) rfl
    · exact h.answer p _ id rfl rfl (Nat.le_refl _) rfl
  | getResult p r => exact h.answer p _ id rfl rfl (Nat.le_refl _) rfl
  | getStatus p r => exact h.answer p _ id rfl rfl (Nat.le_refl _) rfl
  | getScan p r => exact h.answer p _ id rfl rfl (Nat.le_refl _) rfl
  | getPixel p r =>
    simp only [effectOf, effectGetPixel]
    split
    · exact h.answer p _ id rfl rfl (Nat.le_refl _) rfl
    · refine setResult ?_ p _
      exact h.keepPort p _ rfl (.inl rfl) rfl (.inl rfl)
  | getId p r => exact h.answer p _ id rfl rfl (Nat.le_refl _) rfl
  | sleep p r =>
    exact (h.keepPort p { s.port p with consent := true } rfl (.inl rfl) rfl (.inl rfl)).setResult p .ok
  | portReset p r => exact h.portReset p r
  | partReset p r => exact h.partReset p r
  | _ => exact h

end QueuesWithin

end Sys2Proof.Machine
end

section
/-! The queues and their bounds through every event, and O57: rises, held transactions, drains and engines.
-/

namespace Sys2Proof.Machine

namespace QueuesWithin

variable {late : Port → Prop} {s : State}

/-! ## Commands at their rise, and held -/

/-- A port whose transaction has its bytes taken receives the command once its select has risen (R61). -/
theorem receives (h : QueuesWithin onTime s) {p : Port} (ht : (s.port p).txn = .opened true) (n : Nat) :
    ((s.closeTransaction p n).port p).Receives := by
  have hp := h.port p
  have hnil : (s.port p).held = [] := by
    by_contra hn
    exact (hp.held hn).2 ht
  exact ⟨by simpa [State.closeTransaction] using hnil, by simp [State.closeTransaction],
    by simpa [State.closeTransaction] using hp.room ht⟩

theorem setConsent (h : QueuesWithin late s) (p : Port) (b : Bool) :
    QueuesWithin late (s.mapPort p fun q => { q with consent := b }) := h.keepPort p _ rfl (.inl rfl) rfl (.inl rfl)

theorem transact (h : QueuesWithin onTime s) {p : Port} {i : Instr} (hi : portOfCommand i = some p) (fr : Frame)
    (req : List Byte) : QueuesWithin onTime (s.transact p fr req i (effectOf i)) := by
  have ho := h.opened p
  unfold State.transact
  simp only
  split
  · rename_i ht
    have hc := ho.closeTransaction p (req.length + 1)
    obtain ⟨held, txn, room⟩ := ho.receives ht (req.length + 1)
    split
    · exact hc.refuseFrame p fr
    · split
      · rename_i hs
        refine (hc.setConsent p _).hold p _ ?_ ?_ fun j hj => ?_
        · simpa using hs
        · simpa using txn
        · cases hj
          exact ⟨by simpa using held, hi, by simpa using room⟩
      · refine hc.effect i fun k hk => ?_
        obtain rfl : p = k := Option.some.inj (hi.symm.trans hk)
        exact ⟨held, txn, room⟩
  · exact ho.refuseUntaken p _
  · exact ho.closeDiscarded p _
  · exact ho

theorem takeHeld (h : QueuesWithin late s) (p : Port) (x : Held) (hx : ∀ i, x ≠ .command i) :
    QueuesWithin late (State.takeHeld p s x) := by
  rw [State.takeHeld_eq]
  cases x with
  | command i => exact absurd rfl (hx i)
  | writeEnd r => exact h.keepPort p _ rfl (.inl rfl) rfl (.inl rfl)
  | untaken => exact h.keepPort p _ rfl (.inl rfl) rfl (.inl rfl)

/-- Once a port has dropped what it held it is late no longer. -/
theorem dropHeld (h : QueuesWithin late s) (p : Port) :
    QueuesWithin (fun k => k ≠ p ∧ late k) (s.mapPort p fun q => { q with held := [] }) := by
  have hd : QueuesWithin late (s.mapPort p fun q => { q with held := [] }) := h.keepPort p _ rfl (.inr rfl) rfl (.inl rfl)
  refine ⟨fun k => { hd.port k with held := fun hn => ?_ }, hd.places, hd.share⟩
  have hk : k ≠ p := fun e => hn (by simp [e])
  obtain ⟨h1, h2⟩ := (hd.port k).held hn
  exact ⟨h1.imp_left fun hl => ⟨hk, hl⟩, h2⟩

/-- The transactions that a port held are taken: the first may be a command, and the port receives it (R61, R168). -/
theorem applyHeld (h : QueuesWithin late s) (p : Port) : QueuesWithin (fun k => k ≠ p ∧ late k) (s.applyHeld p) := by
  unfold State.applyHeld
  split
  · rename_i hs
    exact h.sweeping hs _
  · have hd := h.dropHeld p
    have hp := h.port p
    cases hl : (s.port p).held with
    | nil => exact hd
    | cons x rest =>
      refine List.foldlRecOn rest _ ?_ fun t ht y hy => ht.takeHeld p y fun i hi => ?_
      · cases x with
        | command i =>
          obtain ⟨hi, room⟩ := hp.heldCommand i (by simp [hl])
          refine hd.effect i fun k hk => ?_
          obtain rfl : p = k := Option.some.inj (hi.symm.trans hk)
          exact ⟨by simp, by simpa using (hp.held (by simp [hl])).2, by simpa using room⟩
        | writeEnd r => exact hd.takeHeld p _ (by simp)
        | untaken => exact hd.takeHeld p _ (by simp)
      · have first := hp.heldFirst i
        rw [hl] at first
        exact first (hi ▸ hy)

/-- When the sweep ends every port is late, until its held transactions are taken (R61, R68). -/
theorem sweptGeometry (h : QueuesWithin onTime s) : QueuesWithin (fun _ => True) s.sweptGeometry := by
  have hl : QueuesWithin (fun _ => True) s := h.relax fun _ => False.elim
  have hc := ((((hl.same (t := ((s.withImage []).withPixels []).withLastGrant .survey) rfl rfl rfl rfl).mapContext .a
    fun c => c.fitted s.width s.height)).mapContext .b fun c => c.fitted s.width s.height)
  exact ⟨fun p => { hc.port p with held := fun hn => ⟨.inl trivial, ((hc.port p).held hn).2⟩ }, hc.places, hc.share⟩

theorem geometrySweepEnd (h : QueuesWithin onTime s) : Answers (execGeometrySweepEnd s) (QueuesWithin onTime) := by
  unfold execGeometrySweepEnd
  split
  · refine .next (settle (relax ((h.sweptGeometry.applyHeld .a).applyHeld .b) fun p hp => ?_))
    obtain ⟨hb, ha, -⟩ := hp
    cases p
    · exact ha rfl
    · exact hb rfl
  · exact .next h

/-! ## Drains -/

theorem dropHead (h : QueuesWithin late s) (p : Port) {e : Entry} {left rest : List Entry}
    (hd : (s.port p).stream = e :: rest) (length : left.length ≤ rest.length + 1)
    (requests : (left.filterMap Entry.request).Sublist (rest.filterMap Entry.request)) :
    QueuesWithin late (s.mapPort p fun q => { q with stream := left }) := by
  have sub : (left.filterMap Entry.request).Sublist ((s.port p).stream.filterMap Entry.request) := by
    rw [hd]
    exact requests.trans ((List.sublist_cons_self e rest).filterMap _)
  exact h.setPort p _ ((h.port p).shrink (by simpa [hd] using length) sub (.inl rfl) (h.port p).done (.inl rfl)) sub

/-- The head of a stream, a request of its port, passes to the tail of the queue: its place goes with it (R60, R74). -/
theorem enqueue (h : QueuesWithin late s) (p : Port) (q : Request) (rest : List Entry)
    (hd : (s.port p).stream = .submit q :: rest) :
    QueuesWithin late ((s.mapPort p fun x => { x with stream := rest }).withQueue (s.queue ++ [q])) := by
  have hr : QueuesWithin late (s.mapPort p fun x => { x with stream := rest }) :=
    h.dropHead p hd (Nat.le_succ _) (List.Sublist.refl _)
  have hq : q.port = p := (h.port p).owner q (by simp [hd, Entry.request])
  have requests (k : Port) : (s.streamRequests k).length =
      (((s.mapPort p fun x => { x with stream := rest }).withQueue (s.queue ++ [q])).streamRequests k).length +
        if k = p then 1 else 0 := by
    by_cases hk : k = p
    · subst hk
      simp [State.streamRequests, hd, Entry.request]
    · simp [State.streamRequests, hk]
  refine ⟨fun k => by simpa using hr.port k, ?_, fun k => ?_⟩
  · have := h.places
    rw [requests .a, requests .b] at this
    cases p <;> simp at this ⊢ <;> omega
  · have := h.share k
    rw [requests k] at this
    rw [State.withQueue_queue, List.countP_append]
    by_cases hk : k = p
    · subst hk
      simp [hq] at this ⊢
      omega
    · have hne : q.port ≠ k := fun e => hk (e ▸ hq)
      simp [hk, hne] at this ⊢
      omega

theorem drainSubmitEntry (h : QueuesWithin onTime s) (p : Port) :
    Answers (execDrainSubmitEntry p s) (QueuesWithin onTime) := by
  unfold execDrainSubmitEntry
  split
  · rename_i q rest hd
    refine .next (settle ?_)
    unfold State.enterQueue
    split
    · exact (h.dropHead p hd (Nat.le_succ _) (List.Sublist.refl _)).appendDone _ _
    · rw [State.mapPort_eq, State.setPort_queue]
      exact (h.enqueue p q rest hd).reconsider
  · exact .next h

end QueuesWithin

end Sys2Proof.Machine
end

section
/-! The queues and their bounds through every event, and O57.
-/

namespace Sys2Proof.Machine

namespace QueuesWithin

variable {s : State}

/-- The drains take entries out of a stream; the engines report the lanes that end and let the queue be reconsidered. -/
theorem engineEvent (h : QueuesWithin onTime s) {i : Instr} (hi : isEngineEvent i = true) :
    Answers (Machine.exec i s) (QueuesWithin onTime) := by
  have same : Answers (.next s) (QueuesWithin onTime) := .next h
  have settled {u : State} (hu : QueuesWithin onTime u) : Answers (.next u.settle) (QueuesWithin onTime) := .next hu.settle
  cases i with
  | drainPixelEntry p =>
    simp only [Machine.exec, execDrainPixelEntry]
    split
    · rename_i x v rest hd
      split
      · have hg : QueuesWithin onTime ((s.setLevel x v).withLastGrant (requesterOf p)) := h.same rfl rfl rfl rfl
        exact settled (hg.dropHead p (by simpa [State.setLevel] using hd) (Nat.le_succ _) (List.Sublist.refl _))
      · exact same
    · exact same
  | drainFillPixel p =>
    simp only [Machine.exec, execDrainFillPixel]
    split
    · rename_i r v x rest hd
      split
      · have hg : QueuesWithin onTime ((s.setLevel x v).withLastGrant (requesterOf p)) := h.same rfl rfl rfl rfl
        refine settled (hg.dropHead p (by simpa [State.setLevel] using hd) ?_ ?_)
        · split
          · exact Nat.le_refl _
          · exact Nat.le_succ _
        · split <;> exact List.Sublist.refl _
      · exact same
    · exact same
  | drainSubmitEntry p => exact h.drainSubmitEntry p
  | surveyStart =>
    simp only [Machine.exec, execSurveyStart]
    split
    · exact settled (h.same rfl rfl rfl rfl)
    · exact same
  | surveyVisit part =>
    simp only [Machine.exec, execSurveyVisit]
    split
    · split
      · split
        · exact settled (h.finishVisit _ _ _)
        · exact same
      · split
        · split
          · exact settled ((h.withLastGrant _).finishVisit _ _ _)
          · exact settled ((h.withLastGrant _).withSurvey _)
        · exact same
      · exact same
    · exact same
  | surveyEnd =>
    have hc := h.closeSurvey
    simp only [Machine.exec, execSurveyEnd]
    split
    · split
      · split
        · exact settled (((hc.reportLane _ _).setLane _ _).reconsider)
        · split
          · exact settled ((hc.joinRetire _ _ _).startRetire)
          · exact settled (((hc.mapLane _ _).withArmingList _).raiseOnDemand)
      · exact same
    · exact same
  | scanStart =>
    simp only [Machine.exec, execScanStart]
    split
    · split
      · exact settled (((h.admitLane _).withScan _).withSupply _)
      · exact same
    · exact same
  | frameRow n =>
    simp only [Machine.exec, execFrameRow]
    split
    · exact settled ((h.drive _).withScan _)
    · exact same
  | frameBoundary =>
    simp only [Machine.exec, execFrameBoundary]
    split
    · have advanced (c : Scanner) (v : Supply) : QueuesWithin onTime ((s.finishFrame.withScan c).withSupply v).advance :=
        ((((h.drive _).withScan _).withScan c).withSupply v).advance
      refine settled (startRetire ?_)
      split
      · exact ((advanced _ _).withScan _).withSupply _
      · exact ((advanced _ _).admitLane _).withScan _
    · exact same
  | retireVisit =>
    simp only [Machine.exec, execRetireVisit]
    split
    · split
      · refine settled (withRetire ?_ _)
        split
        · exact h.same rfl rfl rfl rfl
        · exact h
      · exact same
    · exact same
  | retireWalkEnd =>
    simp only [Machine.exec, execRetireWalkEnd]
    split
    · split
      · exact settled ((((((h.reportLane _ _).setLane _ _).withRetireList _).withRetire none).reconsider).startRetire)
      · exact same
    · exact same
  | _ => exact absurd hi Bool.false_ne_true

theorem leaveDoze (h : QueuesWithin onTime s) : QueuesWithin onTime s.leaveDoze := by
  unfold State.leaveDoze
  split
  · exact h.withPower _ (by rfl)
  · exact h

theorem goStale (h : QueuesWithin onTime s) : QueuesWithin onTime s.goStale := by
  unfold State.goStale
  split
  · exact (h.withTemp _).raiseBoth _
  · exact h

/-- The supply's own events reach no port and no queue. -/
theorem supplyEvent (h : QueuesWithin onTime s) {i : Instr} (hi : isSupplyEvent i = true) :
    Answers (Machine.exec i s) (QueuesWithin onTime) := by
  cases i with
  | railGoodAsserted => exact .next (h.withSupply _).settle
  | parkTimerExpiry =>
    simp only [Machine.exec, execParkTimerExpiry]
    split
    · exact .next (h.withSupply _).settle
    · exact .next h
  | fallTimerExpiry =>
    simp only [Machine.exec, execFallTimerExpiry]
    split
    · split
      · exact .next (h.withSupply _).raiseOnDemand.settle
      · exact .next (h.withSupply _).raiseOnDemand.settle
      · exact .next (h.withSupply _).settle
    · exact .next h
  | _ => exact absurd hi Bool.false_ne_true

/-- An event of the link keeps the bounds: what it does to a transaction is one of the ways above. -/
theorem linkEvent (h : QueuesWithin onTime s) {i : Instr} (hi : isLinkEvent i = true) :
    Answers (Machine.exec i s) (QueuesWithin onTime) := by
  have same : Answers (.next s) (QueuesWithin onTime) := .next h
  have settled {u : State} (hu : QueuesWithin onTime u) : Answers (.next u.settle) (QueuesWithin onTime) := .next hu.settle
  cases i with
  | selectFall p => exact .next (h.opened p)
  | wakingEnd =>
    simp only [Machine.exec, execWakingEnd]
    split
    · exact settled (h.withPower _ (by rfl))
    · exact same
  | unknownCommand p taken =>
    have ho := h.opened p
    simp only [Machine.exec, execUnknownCommand]
    split
    · refine .next ?_
      split
      · refine settle ?_
        split
        · exact (ho.closeTransaction p _).refuseFrame p _
        · exact ho.refuseUntaken p _
      · exact (ho.closeDiscarded p _).settle
      · exact ho
    · exact same
  | writePixels p ph =>
    cases ph with
    | code => exact absurd hi Bool.false_ne_true
    | rise => exact settled (h.endWrite p)
  | writeContinue p ph =>
    cases ph with
    | code => exact .next (h.takeCode p _ (fun _ => rfl) (fun _ => rfl) (fun _ => rfl) (by simp))
    | rise => exact settled (h.endWrite p)
  | readPixels p ph =>
    cases ph with
    | code => exact .next (h.takeCode p _ (fun _ => rfl) (fun _ => rfl) (fun _ => rfl) (by simp))
    | rise => exact settled (h.endRead p)
  | pixelByteDiscarded p =>
    simp only [Machine.exec, execPixelByteDiscarded]
    split
    · rename_i lost beyond ht
      split
      · exact same
      · exact settled (h.discardPixelByte p ht)
    · exact .next (h.clockUntaken p)
  | readbackByte p =>
    simp only [Machine.exec, execReadbackByte]
    split
    · rename_i r ht
      split
      · have hm : QueuesWithin onTime (s.mapPort p fun q =>
            { q with dataOut := q.dataOut ++ [r.clock.1], txn := .reading r.clock.2 }) :=
          h.keepPort p _ rfl (.inl rfl) rfl (.inr (by simp))
        refine settled ?_
        split
        · exact hm.raise p _
        · exact hm
      · exact .next (h.clockZeros p 1)
    · refine .next ?_
      split
      · rw [State.takeAhead_eq]
        exact h.keepPort p _ rfl (.inl rfl) rfl (.inl rfl)
      · exact h.clockUntaken p
    · exact .next (h.clockUntaken p)
  | staleTimerExpiry =>
    simp only [Machine.exec, execStaleTimerExpiry]
    split
    · exact settled (h.leaveDoze.goStale)
    · exact same
  | dozeTimerExpiry =>
    simp only [Machine.exec, execDozeTimerExpiry]
    split
    · exact settled (h.withPower _ (by rfl))
    · exact same
  | resetNRise =>
    refine .next ?_
    split
    · exact h.withPower _ (by rfl)
    · exact h
  | discardedTransactionRise p =>
    simp only [Machine.exec, execDiscardedTransactionRise]
    split
    · exact settled (h.closeDiscarded p 0)
    · exact same
  | _ => exact absurd hi Bool.false_ne_true

/-- Power-on empties streams, queues and what is held (R161). -/
theorem powerOn (r g : Bool) {ta tb : Transaction} (ha : ta = .closed ∨ ta = .discarded) (hb : tb = .closed ∨ tb = .discarded)
    (pend : List Instr) : QueuesWithin onTime (State.powerOn r g ta tb pend) := by
  have port {t : Transaction} (ht : t = .closed ∨ t = .discarded) (p : Port) :
      PortQueues (onTime p) false p (PortState.initial t) := by
    refine ⟨Nat.zero_le _, fun ho => ?_, fun hn => absurd rfl hn, ?_, ?_, ?_, Nat.zero_le _⟩
    · rcases ht with e | e <;> exact absurd (e.symm.trans ho) (by simp)
    · simp [PortState.initial]
    · simp [PortState.initial]
    · simp [PortState.initial]
  refine ⟨fun p => ?_, Nat.zero_le _, fun p => ?_⟩
  · cases p
    · exact port ha .a
    · exact port hb .b
  · cases p <;> exact Nat.zero_le _

/-- Every command keeps streams, done queues, held transactions and places within their bounds. -/
theorem exec (h : QueuesWithin onTime s) (i : Instr) : Answers (Machine.exec i s) (QueuesWithin onTime) := by
  by_cases hl : isLinkEvent i = true
  · exact h.linkEvent hl
  by_cases he : isEngineEvent i = true
  · exact h.engineEvent he
  by_cases hs : isSupplyEvent i = true
  · exact h.supplyEvent hs
  cases hr : requestOf i with
  | some r =>
    obtain ⟨p, req, more, n⟩ := r
    exact ⟨_, exec_request hr s, (h.transact (by simp [portOfCommand, hr]) _ _).settle⟩
  | none =>
  have same : Answers (.next s) (QueuesWithin onTime) := .next h
  have settled {u : State} (hu : QueuesWithin onTime u) : Answers (.next u.settle) (QueuesWithin onTime) := .next hu.settle
  cases i with
  | powerOnReset r => exact .next (.powerOn _ _ s.portA.txn.abandoned_closed s.portB.txn.abandoned_closed _)
  | initSweepEnd =>
    simp only [Machine.exec, execInitSweepEnd]
    split
    · exact settled (h.same rfl rfl rfl rfl)
    · exact same
  | writePixels p ph =>
    cases ph with
    | rise => exact absurd rfl hl
    | code => exact .next (h.takeCode p _ (fun _ => rfl) (fun _ => rfl) (fun _ => rfl) (by simp))
  | pixelDataByte p b =>
    simp only [Machine.exec, execPixelDataByte]
    split
    · rename_i lost beyond ht
      refine settled ?_
      split
      · rename_i hready
        exact h.takePixelByte p b ht hready
      · exact h.discardPixelByte p ht
    · exact .next (h.clockUntaken p)
  | readbackLevelRead p =>
    simp only [Machine.exec, execReadbackLevelRead]
    split
    · split
      · split
        · exact settled ((h.withLastGrant _).keepPort p _ rfl (.inl rfl) rfl (.inr (by simp)))
        · exact same
      · exact same
    · exact same
  | validationEnd =>
    simp only [Machine.exec, execValidationEnd]
    split
    · split
      · exact settled ((((((h.withTable _).setResult _ _).raiseBoth _).withTemp _).sweepQueue).reconsider)
      · exact settled ((h.withTable _).setResult _ _)
    · exact same
  | geometrySweepEnd => exact h.geometrySweepEnd
  | railLost =>
    refine settled ?_
    split
    · exact (h.withSupply _).trip _
    · exact h.withSupply _
  | riseTimeout =>
    simp only [Machine.exec, execRiseTimeout]
    split
    · exact settled (h.trip _)
    · exact same
  | zoneLapse z =>
    simp only [Machine.exec, execZoneLapse]
    split
    · exact settled (((h.leaveDoze.setZone z none).raise _ _).reconsider)
    · exact same
  | _ => simp [isLinkEvent, isEngineEvent, isSupplyEvent, requestOf] at hl he hs hr

end QueuesWithin

/-- Settles O57: a transaction has its bytes taken only where its stream has room, is held only at its rise, and a request
keeps its place from its stream to the queue. -/
theorem stepKeepsQueues : Obligations.StepKeepsQueues := by
  intro s t h hs
  rw [queuesSound_iff] at h ⊢
  exact step_keeps (QueuesWithin onTime) (fun _ _ h => h.same rfl rfl rfl rfl) (fun _ _ i h he => (h.exec i).elim he) s t h hs

end Sys2Proof.Machine
end

section
/-! The commands of the contexts (R57, R58, R65) and SET_GEOMETRY (R67): O13, O14, O18 and O34. Each effect is stated for a
port whose select has risen.
-/

namespace Sys2Proof.Machine

section Effects

variable (s : State) (p : Port) (n : Nat)

/-! ## SET_WINDOW -/

/-- Coordinates in order become the window, clamped, with the cursor at its origin (R57). -/
theorem effectSetWindow_risen {x0 y0 x1 y1 : Nat} (h0 : x0 < 65536) (h1 : y0 < 65536) (h2 : x1 < 65536) (h3 : y1 < 65536)
    (ho : x0 ≤ x1 ∧ y0 ≤ y1) :
    let c := (s.port p).ctx
    let right := portWidth c.orientation s.width s.height - 1
    let bottom := portHeight c.orientation s.width s.height - 1
    let r : Rect := ⟨min x0 right, min y0 bottom, min x1 right, min y1 bottom⟩
    effectSetWindow p (coordinates x0 y0 x1 y1) (s.setPort p (s.risen p n)) = s.setPort p
      { s.ended p n (if x0 ≤ right ∧ y0 ≤ bottom ∧ x1 ≤ right ∧ y1 ≤ bottom then .ok else .clamped) with
        ctx := { c with window := r, cursor := some (r.x0, r.y0) } } := by
  have hord : Rect.ordered ⟨x0, y0, x1, y1⟩ = true := by simpa [Rect.ordered] using ho
  simp only [effectSetWindow, parseRect_coordinates x0 y0 x1 y1 h0 h1 h2 h3, hord, if_true, clampResult_area]
  simp [State.mapContext, State.setResult_eq, State.risen, State.ended, clampToArea, Rect.origin]

theorem effectSetWindow_unordered {x0 y0 x1 y1 : Nat} (h0 : x0 < 65536) (h1 : y0 < 65536) (h2 : x1 < 65536)
    (h3 : y1 < 65536) (ho : ¬ (x0 ≤ x1 ∧ y0 ≤ y1)) :
    effectSetWindow p (coordinates x0 y0 x1 y1) (s.setPort p (s.risen p n)) = s.ends p n .badParam := by
  have hord : Rect.ordered ⟨x0, y0, x1, y1⟩ = false := by simpa [Rect.ordered] using ho
  simp only [effectSetWindow, parseRect_coordinates x0 y0 x1 y1 h0 h1 h2 h3, hord, Bool.false_eq_true, if_false,
    State.setResult_risen]

/-! ## SET_FORMAT and SET_ORIENTATION -/

theorem effectSetFormat_risen {b : Byte} {f : PixelFormat} (h : parseFormat b = some f) :
    effectSetFormat p [b] (s.setPort p (s.risen p n)) = s.setPort p
      { s.ended p n .ok with ctx := { (s.port p).ctx with format := f } } := by
  simp [effectSetFormat, h, State.mapContext, State.setResult_eq, State.risen, State.ended]

/-- A byte above a bound is none of the codes up to it. -/
theorem ne_of_lt_toNat {b : Byte} {k : Nat} (h : k < b.toNat) (c : Byte) (hc : c.toNat ≤ k) : b ≠ c := fun e => by
  rw [e] at h
  exact absurd hc (Nat.not_le.2 h)

theorem parseFormat_none {b : Byte} (h : 2 < b.toNat) : parseFormat b = none := by
  rw [parseFormat, if_neg (ne_of_lt_toNat h 0 (by decide)), if_neg (ne_of_lt_toNat h 1 (by decide)),
    if_neg (ne_of_lt_toNat h 2 (by decide))]

/-- Orientation and mirror are set, with the window the whole port area and the cursor at its origin (R58). -/
theorem effectSetOrientation_risen {b c : Byte} {o : Orientation} {m : Bool} (ho : parseOrientation b = some o)
    (hm : parseFlag c = some m) : effectSetOrientation p [b, c] (s.setPort p (s.risen p n)) = s.setPort p
      { s.ended p n .ok with ctx := { (s.port p).ctx with
        orientation := o, mirror := m, cursor := some (0, 0)
        window := ⟨0, 0, portWidth o s.width s.height - 1, portHeight o s.width s.height - 1⟩ } } := by
  simp [effectSetOrientation, ho, hm, State.mapContext, State.setResult_eq, State.risen, State.ended, portArea]

theorem parseOrientation_none {b : Byte} (h : 3 < b.toNat) : parseOrientation b = none := by
  rw [parseOrientation, if_neg (ne_of_lt_toNat h 0 (by decide)), if_neg (ne_of_lt_toNat h 1 (by decide)),
    if_neg (ne_of_lt_toNat h 2 (by decide)), if_neg (ne_of_lt_toNat h 3 (by decide))]

theorem parseFlag_none {b : Byte} (h : 1 < b.toNat) : parseFlag b = none := by
  rw [parseFlag, if_neg (ne_of_lt_toNat h 0 (by decide)), if_neg (ne_of_lt_toNat h 1 (by decide))]

theorem parseFlag_flagByte (m : Bool) : parseFlag (if m then 1 else 0) = some m := by cases m <;> rfl

theorem effectSetOrientation_refused {b c : Byte} (h : 3 < b.toNat ∨ 1 < c.toNat) :
    effectSetOrientation p [b, c] (s.setPort p (s.risen p n)) = s.ends p n .badParam := by
  rcases h with h | h
  · simp [effectSetOrientation, parseOrientation_none h, State.setResult_risen]
  · simp [effectSetOrientation, parseFlag_none h, State.setResult_risen]

/-! ## FILL_WINDOW -/

/-- The fill of the window joins the stream (R65). -/
theorem effectFillWindow_risen {b : Byte} {v : Level} (h : b.toNat = v.val) :
    effectFillWindow p [b] (s.setPort p (s.risen p n)) = s.setPort p { s.ended p n .ok with
      stream := (s.port p).stream ++ [.fill (rectToPanel (s.port p).ctx s.width s.height (s.port p).ctx.window) v
        (rectToPanel (s.port p).ctx s.width s.height (s.port p).ctx.window).origin] } := by
  have hv : levelOf b.toNat = v := by rw [h]; exact Fin.ofNat_val_eq_self v
  have hle : b.toNat ≤ 15 := by have := v.isLt; omega
  simp [effectFillWindow, hle, hv, State.pushEntry, State.setResult_eq, State.risen, State.ended]

theorem effectFillWindow_refused {b : Byte} (h : 15 < b.toNat) :
    effectFillWindow p [b] (s.setPort p (s.risen p n)) = s.ends p n .badParam := by
  simp [effectFillWindow, Nat.not_le.2 h, State.setResult_risen]

end Effects

/-- Settles O13. -/
theorem setWindow : Obligations.SetWindow := by
  intro p s x0 y0 x1 y1 ht h0 h1 h2 h3
  have run {t : State} (he : effectSetWindow p (coordinates x0 y0 x1 y1) (s.setPort p (s.risen p 9)) = t) :
      exec (.setWindow p (coordinates x0 y0 x1 y1)) s = .next t.settle :=
    exec_effect (i := .setWindow p (coordinates x0 y0 x1 y1)) rfl ht (by simp) (by rw [coordinates_length]; exact he)
  refine ⟨fun ho => run (effectSetWindow_unordered s p 9 h0 h1 h2 h3 ho), fun ho =>
    ⟨run (effectSetWindow_risen s p 9 h0 h1 h2 h3 ho), fun hw hh => ?_⟩⟩
  have area : 1 ≤ portWidth (s.port p).ctx.orientation s.width s.height ∧
      1 ≤ portHeight (s.port p).ctx.orientation s.width s.height := by
    cases (s.port p).ctx.orientation <;> simp [portWidth, portHeight, hw, hh]
  simp only
  omega

/-- Settles O14. -/
theorem setFormatAndOrientation : Obligations.SetFormatAndOrientation := by
  intro p s ht
  have format {b : Byte} {t : State} (he : effectSetFormat p [b] (s.setPort p (s.risen p 2)) = t) :
      exec (.setFormat p [b]) s = .next t.settle := exec_effect (i := .setFormat p [b]) rfl ht rfl he
  have orient {b c : Byte} {t : State} (he : effectSetOrientation p [b, c] (s.setPort p (s.risen p 3)) = t) :
      exec (.setOrientation p [b, c]) s = .next t.settle := exec_effect (i := .setOrientation p [b, c]) rfl ht rfl he
  refine ⟨format (effectSetFormat_risen s p 2 rfl), format (effectSetFormat_risen s p 2 rfl),
    format (effectSetFormat_risen s p 2 rfl), fun b hb => format ?_, fun m => ?_, fun o m hom =>
      orient (effectSetOrientation_refused s p 3 hom)⟩
  · simp [effectSetFormat, parseFormat_none hb, State.setResult_risen]
  · have hm := parseFlag_flagByte m
    exact ⟨orient (effectSetOrientation_risen s p 3 rfl hm), orient (effectSetOrientation_risen s p 3 rfl hm),
      orient (effectSetOrientation_risen s p 3 rfl hm), orient (effectSetOrientation_risen s p 3 rfl hm)⟩

/-- Settles O18. -/
theorem fillWindow : Obligations.FillWindow := by
  intro p s b ht
  have run {t : State} (he : effectFillWindow p [b] (s.setPort p (s.risen p 2)) = t) :
      exec (.fillWindow p [b]) s = .next t.settle := exec_effect (i := .fillWindow p [b]) rfl ht rfl he
  exact ⟨fun v hv => run (effectFillWindow_risen s p 2 hv), fun hb => run (effectFillWindow_refused s p 2 hb)⟩

/-! ## SET_GEOMETRY -/

/-- The conditions on which SET_GEOMETRY is taken, read off the state before its own transaction rose (R67). -/
theorem State.geometryFree_risen (s : State) (p : Port) (n : Nat) : (s.setPort p (s.risen p n)).geometryFree p = true ↔
    (∀ l, (s.lane l).state = .free) ∧ s.queue = [] ∧ s.portA.stream = [] ∧ s.portB.stream = [] ∧
      (∀ z, s.zone z = none) ∧ ∀ r, (s.port (otherPort p)).txn ≠ .reading r := by
  have reading : (s.setPort p (s.risen p n)).readingOn (otherPort p) = false ↔
      ∀ r, (s.port (otherPort p)).txn ≠ .reading r := by
    rw [State.readingOn, State.setPort_port, if_neg (otherPort_ne p)]
    cases (s.port (otherPort p)).txn <;> simp
  have streams : (s.setPort p (s.risen p n)).portA.stream = s.portA.stream ∧
      (s.setPort p (s.risen p n)).portB.stream = s.portB.stream := by cases p <;> exact ⟨rfl, rfl⟩
  rw [State.geometryFree, streams.1, streams.2]
  simp [reading, State.allFree_iff, State.noZone_iff, and_assoc]

section Geometry

variable (s : State) (p : Port) (n : Nat) {w h : Nat} (hw : w < 65536) (hh : h < 65536)

include hw hh

theorem effectSetGeometry_eq (t : State) : effectSetGeometry p (bytesOf 2 w ++ bytesOf 2 h) t =
    if 64 ≤ w ∧ w ≤ 2048 ∧ 64 ≤ h ∧ h ≤ 1600 then
      if t.geometryFree p = true then
        (((t.withGeometry w h).withPower { t.power with geometrySweep := true }).withScan
          { t.scan with markRow := min t.scan.markRow (h - 1), pendingMark := none }).setResult p .ok
      else t.setResult p .inUse
    else t.setResult p .badParam := by
  have range : (w < Config.minWidth ∨ Config.maxWidth < w ∨ h < Config.minHeight ∨ Config.maxHeight < h) ↔
      ¬ (64 ≤ w ∧ w ≤ 2048 ∧ 64 ≤ h ∧ h ≤ 1600) := by
    simp only [Config.minWidth, Config.maxWidth, Config.minHeight, Config.maxHeight]
    omega
  have h0 : reqWord (bytesOf 2 w ++ bytesOf 2 h) 0 = w := reqWord_bytesOf_append hw _
  have h2 : reqWord (bytesOf 2 w ++ bytesOf 2 h) 2 = h :=
    (reqWord_append_add_two w (bytesOf 2 h) 0).trans (reqWord_bytesOf hh)
  simp only [effectSetGeometry, h0, h2, range, ite_not]
  split
  · cases t.geometryFree p <;> simp
  · rfl

theorem effectSetGeometry_taken (range : 64 ≤ w ∧ w ≤ 2048 ∧ 64 ≤ h ∧ h ≤ 1600)
    (free : (s.setPort p (s.risen p n)).geometryFree p = true) :
    effectSetGeometry p (bytesOf 2 w ++ bytesOf 2 h) (s.setPort p (s.risen p n)) =
      (((s.ends p n .ok).withGeometry w h).withPower { s.power with geometrySweep := true }).withScan
        { s.scan with markRow := min s.scan.markRow (h - 1), pendingMark := none } := by
  rw [effectSetGeometry_eq p hw hh, if_pos range, if_pos free, ← State.setResult_risen]
  simp only [State.setResult_eq]
  cases p <;> rfl

end Geometry

/-- Settles O34. -/
theorem setGeometry : Obligations.SetGeometry := by
  intro p s w h ht hw hh
  have run {t : State} (he : effectSetGeometry p (bytesOf 2 w ++ bytesOf 2 h) (s.setPort p (s.risen p 5)) = t) :
      exec (.setGeometry p (bytesOf 2 w ++ bytesOf 2 h)) s = .next t.settle :=
    exec_effect (i := .setGeometry p (bytesOf 2 w ++ bytesOf 2 h)) rfl ht (by simp)
      (by rw [List.length_append, bytesOf_length, bytesOf_length]; exact he)
  refine ⟨fun hr => run ?_, fun hr hf => run ?_, fun hr hf => run ?_⟩
  · rw [effectSetGeometry_eq p hw hh, if_neg hr, State.setResult_risen]
  · rw [effectSetGeometry_eq p hw hh, if_pos hr, if_neg (mt (s.geometryFree_risen p 5).1 hf), State.setResult_risen]
  · exact effectSetGeometry_taken s p 5 hw hh hr ((s.geometryFree_risen p 5).2 hf)

end Sys2Proof.Machine
end

section
/-! The mapping from port to panel positions (R56), the arbiter's rotation (R53) and the accesses it grants (R60, R66):
O15, O19, O20, O21 and O22.
-/

namespace Sys2Proof.Machine

/-! ## The mapping and its inverse -/

/-- The port position of a panel position: the orientation is undone, then the mirror step (R56). -/
def fromPanel (c : PortContext) (w h : Nat) (z : Pos) : Pos :=
  let x : Pos := match c.orientation with
    | .rot0 => z
    | .rot90 => (z.2, w - 1 - z.1)
    | .rot180 => (w - 1 - z.1, h - 1 - z.2)
    | .rot270 => (h - 1 - z.2, z.1)
  (if c.mirror then portWidth c.orientation w h - 1 - x.1 else x.1, x.2)

section Mapping

variable (c : PortContext) {w h : Nat}

theorem flip_flip {a n : Nat} (ha : a < n) : n - 1 - (n - 1 - a) = a := by omega

theorem fromPanel_toPanel {x : Pos} (hx : x.1 < portWidth c.orientation w h) (hy : x.2 < portHeight c.orientation w h) :
    fromPanel c w h (toPanel c w h x) = x := by
  unfold fromPanel toPanel
  cases ho : c.orientation <;> simp only [ho, portWidth, portHeight] at hx hy <;> cases c.mirror <;>
    simp [portWidth, flip_flip hx, flip_flip hy]

theorem toPanel_fromPanel {z : Pos} (hx : z.1 < w) (hy : z.2 < h) : toPanel c w h (fromPanel c w h z) = z := by
  unfold fromPanel toPanel
  cases c.orientation <;> cases c.mirror <;> simp [portWidth, flip_flip hx, flip_flip hy]

theorem fromPanel_lt {z : Pos} (hx : z.1 < w) (hy : z.2 < h) :
    (fromPanel c w h z).1 < portWidth c.orientation w h ∧ (fromPanel c w h z).2 < portHeight c.orientation w h := by
  simp only [fromPanel]
  cases ho : c.orientation <;> simp only [portWidth, portHeight] <;> split_ifs <;> omega

/-- The panel rectangle of a rectangle of the port area holds the image of a position of the area exactly when the
rectangle holds the position (R56). -/
theorem rectToPanel_has {r : Rect} (hr : r.Fits (portWidth c.orientation w h) (portHeight c.orientation w h)) {x : Pos}
    (hx : x.1 < portWidth c.orientation w h) (hy : x.2 < portHeight c.orientation w h) :
    (rectToPanel c w h r).has (toPanel c w h x) = true ↔ r.has x = true := by
  obtain ⟨⟨h0, h1⟩, h2, h3⟩ := hr
  simp only [Rect.has_iff, rectToPanel, toPanel]
  cases ho : c.orientation <;> simp only [ho, portWidth, portHeight] at hx hy h2 h3 ⊢ <;> split_ifs <;> omega

end Mapping

/-- Settles O15: the mapping has an inverse on the panel, and a rectangle holds what its image holds. -/
theorem portMapping : Obligations.PortMapping := by
  intro c w h _ _
  refine ⟨fun x _ => ?_, fun x hx => toPanel_lt c hx.1 hx.2, fun x y hx hy he => ?_, fun z hw hh =>
    ⟨fromPanel c w h z, fromPanel_lt c hw hh, toPanel_fromPanel c hw hh⟩, fun r hr z => ⟨fun hz => ?_, ?_⟩⟩
  · rfl
  · rw [← fromPanel_toPanel c hx.1 hx.2, he, fromPanel_toPanel c hy.1 hy.2]
  · have hfit := rectToPanel_fits c hr
    obtain ⟨⟨_, hx⟩, _, hy⟩ := (Rect.has_iff _ _).1 hz
    have hw : z.1 < w := Nat.lt_of_le_of_lt hx hfit.inside.1
    have hh : z.2 < h := Nat.lt_of_le_of_lt hy hfit.inside.2
    obtain ⟨ax, ay⟩ := fromPanel_lt c hw hh
    have back := toPanel_fromPanel c hw hh
    exact ⟨fromPanel c w h z, (rectToPanel_has c hr ax ay).1 (by rw [back]; exact hz), back⟩
  · rintro ⟨x, hx, rfl⟩
    obtain ⟨⟨_, h1⟩, _, h2⟩ := (Rect.has_iff _ _).1 hx
    exact (rectToPanel_has c hr (Nat.lt_of_le_of_lt h1 hr.inside.1) (Nat.lt_of_le_of_lt h2 hr.inside.2)).2 hx

/-! ## The rotation -/

/-- The requester that the rotation comes to after this one (R53). -/
def Requester.next : Requester → Requester
  | .portA => .portB
  | .portB => .survey
  | .survey => .portA

theorem grantOrder_eq (g : Requester) : grantOrder g = [g.next, g.next.next, g] := by cases g <;> rfl

theorem Requester.eq_next_of_ne {r g : Requester} (h : g ≠ r) : r = g.next ∨ r = g.next.next := by
  cases g <;> cases r <;> simp_all [Requester.next]

theorem State.turn_eq (s : State) : s.turn =
    if s.waits s.lastGrant.next then some s.lastGrant.next
    else if s.waits s.lastGrant.next.next then some s.lastGrant.next.next
    else if s.waits s.lastGrant then some s.lastGrant else none := by
  rw [State.turn, grantOrder_eq]
  simp only [List.find?]
  cases s.waits s.lastGrant.next <;> cases s.waits s.lastGrant.next.next <;> cases s.waits s.lastGrant <;> rfl

theorem State.turn_next (s : State) (h : s.waits s.lastGrant.next = true) : s.turn = some s.lastGrant.next := by
  rw [s.turn_eq, if_pos h]

theorem State.turn_eq_none_iff (s : State) : s.turn = none ↔ ∀ r, s.waits r = false := by
  have every (r : Requester) : r ∈ grantOrder s.lastGrant := by cases r <;> cases s.lastGrant <;> decide
  simp only [State.turn, List.find?_eq_none, Bool.not_eq_true]
  exact ⟨fun h r => h r (every r), fun h r _ => h r⟩

/-- While another requester waits, the last one served is not served again; what is served before the other one is what
the rotation comes to first. -/
theorem State.turn_of_other (s : State) {r : Requester} (hne : s.lastGrant ≠ r) (hr : s.waits r = true) :
    s.turn = some r ∨ (s.turn = some s.lastGrant.next ∧ r = s.lastGrant.next.next) := by
  rcases Requester.eq_next_of_ne hne with rfl | rfl
  · exact .inl (s.turn_next hr)
  · by_cases hn : s.waits s.lastGrant.next = true
    · exact .inr ⟨s.turn_next hn, rfl⟩
    · rw [s.turn_eq, if_neg hn, if_pos hr]
      exact .inl rfl

/-- Settles O22: the turn is read off the three places of the rotation after the last grant. -/
theorem arbiterRotation : Obligations.ArbiterRotation := by
  refine ⟨fun s => ⟨s.turn_eq_none_iff, s.waits_turn⟩, fun s hl hw => ?_, fun s hl hw => ?_, fun s hl hw => ?_,
    fun r q s t u _ _ hqr htl htr => ?_⟩
  · have h := s.turn_next
    rw [hl] at h
    exact h hw
  · have h := s.turn_next
    rw [hl] at h
    exact h hw
  · have h := s.turn_next
    rw [hl] at h
    exact h hw
  · subst htl
    rcases t.turn_of_other hqr htr with ht | ⟨ht, rfl⟩
    · rw [ht]
      exact ⟨fun e => hqr (Option.some.inj e).symm, fun q' e hne => absurd (Option.some.inj e).symm hne⟩
    · rw [ht]
      refine ⟨fun e => ?_, fun q' e _ hul hur => ?_⟩
      · cases hg : t.lastGrant <;> simp [hg, Requester.next] at e
      · obtain rfl := Option.some.inj e
        rw [← hul] at hur ⊢
        exact u.turn_next hur

/-! ## Accesses of a port that are granted -/

section Granted

variable {s : State} {p : Port}

theorem exec_drainPixelEntry_granted {x : Pos} {v : Level} {rest : List Entry} (hq : (s.port p).stream = .pixel x v :: rest)
    (ht : s.turn = some (requesterOf p)) : exec (.drainPixelEntry p) s =
      .next (((s.setLevel x v).withLastGrant (requesterOf p)).setPort p { s.port p with stream := rest }).settle := by
  simp [exec, execDrainPixelEntry, hq, ht, State.setLevel]

theorem exec_drainFillPixel_granted {r : Rect} {x : Pos} {v : Level} {rest : List Entry}
    (hq : (s.port p).stream = .fill r v x :: rest) (ht : s.turn = some (requesterOf p)) : exec (.drainFillPixel p) s =
      .next (((s.setLevel x v).withLastGrant (requesterOf p)).setPort p { s.port p with stream :=
        (if x.1 < r.x1 then .fill r v (x.1 + 1, x.2) :: rest
          else if x.2 < r.y1 then .fill r v (r.x0, x.2 + 1) :: rest else rest) }).settle := by
  simp only [exec, execDrainFillPixel, hq, ht, if_true, Rect.nextPos]
  split_ifs <;> simp [State.setLevel]

theorem exec_readbackLevelRead_granted {r : Readback} {x : Pos} (hr : (s.port p).txn = .reading r)
    (hq : (s.port p).stream = []) (hx : r.pos = some x) (hg : r.granted.length < 2)
    (ht : s.turn = some (requesterOf p)) : exec (.readbackLevelRead p) s =
      .next (((s.withLastGrant (requesterOf p)).setPort p { s.port p with
        txn := .reading { r with granted := r.granted ++ [s.level (toPanel (s.port p).ctx s.width s.height x)]
                                 pos := (s.port p).ctx.window.nextPos x } }).settle) := by
  simp [exec, execReadbackLevelRead, hr, hq, hx, hg, ht, State.panelPos]

/-- A byte of a readback while READY is high (R66). -/
theorem exec_readbackByte_ready {r : Readback} (ht : (s.port p).txn = .reading r) (hr : s.ready p = true) :
    exec (.readbackByte p) s = .next ((s.setPort p { s.port p with
      dataOut := (s.port p).dataOut ++ [r.clock.1], txn := .reading r.clock.2
      flags := if r.dummySent && r.pos.isNone && r.granted.isEmpty then (s.port p).flags ||| 0x008
        else (s.port p).flags }).settle) := by
  have hbit : BitVec.twoPow 12 Flag.overrun.bit = 8#12 := rfl
  cases hb : r.dummySent && r.pos.isNone && r.granted.isEmpty <;>
    simp [exec, execReadbackByte, ht, hr, hb, State.raise_eq, hbit]

theorem exec_readbackByte_low {r : Readback} (ht : (s.port p).txn = .reading r) (hr : s.ready p = false) :
    exec (.readbackByte p) s = .next (s.setPort p
      { s.port p with dataOut := (s.port p).dataOut ++ [0], txn := .reading r }) := by
  simp [exec, execReadbackByte, ht, hr, State.clockZeros]

end Granted

/-- Settles O20: the position written is that of the entry at the head. -/
theorem drainsWriteImage : Obligations.DrainsWriteImage := by
  intro p s x v rest ht hwf hx
  refine ⟨Store.write sweptLevel s.image (address x) v, Store.wf_write _ _ _ _ hwf, ?_, fun y hy hne => ?_,
    fun hq => exec_drainPixelEntry_granted hq ht, fun r hq => exec_drainFillPixel_granted hq ht⟩
  · exact (s.setLevel_level x x v hwf hx hx).trans (if_pos rfl)
  · exact (s.setLevel_level x y v hwf hx hy).trans (if_neg hne)

/-- Settles O19, by what the byte clocked out is in each stage of the readback. -/
theorem readbackBytes : Obligations.ReadbackBytes := by
  intro p s r ht
  refine ⟨fun x hq hx hg hturn => exec_readbackLevelRead_granted ht hq hx hg hturn, fun hr hd => ?_,
    fun a b hr hd hg => ?_, fun a hr hd hg => ?_, fun hr hd hg hp => ?_, exec_readbackByte_low ht⟩
  · simpa [Readback.clock, hd] using exec_readbackByte_ready ht hr
  · simpa [Readback.clock, hd, hg, packLevels] using exec_readbackByte_ready ht hr
  · simpa [Readback.clock, hd, hg, packLevels] using exec_readbackByte_ready ht hr
  · simpa [Readback.clock, hd, hg, hp] using exec_readbackByte_ready ht hr

/-! ## A submit entry -/

theorem State.undefinedMode_iff (s : State) (m : Nat) : s.undefinedMode m = true ↔
    s.table.phase = .valid ∧ ∃ t, s.table.table = some t ∧ t.header.modeCount ≤ m := by
  cases ht : s.table.table <;> simp [State.undefinedMode, State.tableValid, ht, Table.defines]

/-- Settles O21: whether the mode is defined is the same once the entry has left the stream. -/
theorem drainSubmitEntry : Obligations.DrainSubmitEntry := by
  intro p s q rest hq
  have run : exec (.drainSubmitEntry p) s =
      .next (((s.setPort p { s.port p with stream := rest }).enterQueue q).settle) := by
    simp [exec, execDrainSubmitEntry, hq]
  have undefined := (s.setPort p { s.port p with stream := rest }).undefinedMode_iff q.mode
  rw [State.setPort_table] at undefined
  refine ⟨fun t hv ht hm => ?_, fun h => ?_⟩
  · rw [run, State.enterQueue, if_pos (undefined.2 ⟨hv, t, ht, hm⟩)]
    rfl
  · have defined : ¬ (s.setPort p { s.port p with stream := rest }).undefinedMode q.mode = true := by
      rw [undefined]
      rintro ⟨hv, t, ht, hm⟩
      rcases h with h | ⟨t', ht', hm'⟩
      · exact h hv
      · rw [ht] at ht'
        obtain rfl := Option.some.inj ht'
        exact absurd hm' (Nat.not_lt.2 hm)
    rw [run, State.enterQueue, if_neg defined, State.setPort_queue]

end Sys2Proof.Machine
end

section
/-! Transactions that do not take effect at their rise: refused BAD_FRAME (R169), held by a geometry sweep (R61, R168),
discarded whole (R161, R166), or begun by the command itself (Log 4): O10 and O11.
-/

namespace Sys2Proof.Machine

section Transactions

variable {s : State} {p : Port}

/-! ## The frame of a request -/

/-- The number of request bytes fits the frame, by whether more bytes may follow (R168). -/
theorem frame_fits_iff (more : Bool) (n k : Nat) :
    (if more then Frame.query n else .fixed n).fits k = true ↔ if more then n ≤ k else k = n := by
  cases more <;> simp [Frame.fits]

theorem frame_misfits_iff (more : Bool) (n k : Nat) :
    (if more then Frame.query n else .fixed n).fits k = false ↔ if more then k < n else k ≠ n := by
  cases more <;> simp [Frame.fits]

/-! ## No byte taken -/

/-- The rise of a streaming command whose code was not taken (R61, R169). -/
theorem exec_rise_untaken {i : Instr} {heard : Bool} (ht : (s.port p).txn = .opened heard)
    (hi : i ∈ [.writePixels p .rise, .writeContinue p .rise, .readPixels p .rise]) :
    exec i s = .next (s.refuseUntaken p 0).settle := by
  simp only [List.mem_cons, List.not_mem_nil, or_false] at hi
  obtain rfl | rfl | rfl := hi
  · simp [exec, execWritePixels, State.endWrite, State.riseWithoutCode, ht]
  · simp [exec, execWriteContinue, State.endWrite, State.riseWithoutCode, ht]
  · simp [exec, execReadPixels, State.endRead, State.riseWithoutCode, ht]

/-- A transaction whose code names no command, its first byte taken (R169). -/
theorem exec_unknownCommand_taken {taken : List Byte} (ht : (s.port p).txn = .opened true) (hne : taken ≠ [])
    (hc : namesNoCommand taken = true) :
    exec (.unknownCommand p taken) s = .next (s.ends p taken.length .badFrame).settle := by
  simp [exec, execUnknownCommand, hc, s.opened_of_open p (by simp [ht]), ht, hne, State.closeTransaction,
    State.refuseFrame, State.setResult_eq, State.ends, State.ended]

/-- One of which no byte was taken (R61, R169). -/
theorem exec_unknownCommand_untaken {taken : List Byte} {heard : Bool} (ht : (s.port p).txn = .opened heard)
    (h : taken = [] ∨ (heard = false ∧ namesNoCommand taken = true)) :
    exec (.unknownCommand p taken) s = .next (s.refuseUntaken p taken.length).settle := by
  have ho := s.opened_of_open p (by simp [ht])
  rcases h with rfl | ⟨rfl, hc⟩
  · simp [exec, execUnknownCommand, namesNoCommand, ho, ht]
  · simp [exec, execUnknownCommand, hc, ho, ht]

end Transactions

/-- Settles O10. -/
theorem wrongFrameRefused : Obligations.WrongFrameRefused := by
  refine ⟨fun i p req more n s hi ht hf => ?_, fun i p req more n s hi ht => ?_, fun i p heard s hi ht => ?_,
    fun p taken s ht hne hc => exec_unknownCommand_taken ht hne hc, fun p taken heard s ht h => ?_⟩
  · rw [exec_request hi, State.transact_badFrame _ _ _ _ _ _ ht ((frame_misfits_iff more n _).2 hf)]
    cases more <;> rfl
  · rw [exec_request hi, State.transact_unheard _ _ _ _ _ _ ht, State.refuseUntaken_eq]
  · rw [exec_rise_untaken ht hi, State.refuseUntaken_eq]
  · rw [exec_unknownCommand_untaken ht h, State.refuseUntaken_eq]

/-- Only SLEEP keeps the consent that its port has given (R164). -/
theorem isSleep_and (i : Instr) (consent : Bool) :
    (isSleep i && consent) = match i with | .sleep _ _ => consent | _ => false := by
  cases i <;> simp [isSleep]

/-! ## A discarded transaction -/

section Discarded

variable {s : State} {p : Port}

/-- The rise of a discarded transaction: only its select moves, after its bytes have clocked out zeros (R161, R166). -/
theorem State.closeDiscarded_eq (s : State) (p : Port) (n : Nat) : s.closeDiscarded p n = s.setPort p { s.port p with
    txn := .closed, dataOut := (s.port p).dataOut ++ List.replicate n 0 } := by
  simp [State.closeDiscarded, State.clockZeros]

theorem exec_rise_discarded {i : Instr} (ht : (s.port p).txn = .discarded)
    (hi : i ∈ [.discardedTransactionRise p, .writePixels p .rise, .writeContinue p .rise, .readPixels p .rise]) :
    exec i s = .next (s.closeDiscarded p 0).settle := by
  simp only [List.mem_cons, List.not_mem_nil, or_false] at hi
  obtain rfl | rfl | rfl | rfl := hi
  · simp [exec, execDiscardedTransactionRise, ht]
  · simp [exec, execWritePixels, State.endWrite, State.riseWithoutCode, ht]
  · simp [exec, execWriteContinue, State.endWrite, State.riseWithoutCode, ht]
  · simp [exec, execReadPixels, State.endRead, State.riseWithoutCode, ht]

theorem exec_unknownCommand_discarded {taken : List Byte} (ht : (s.port p).txn = .discarded)
    (hc : namesNoCommand taken = true) :
    exec (.unknownCommand p taken) s = .next (s.closeDiscarded p taken.length).settle := by
  simp [exec, execUnknownCommand, hc, s.opened_of_open p (by simp [ht]), ht]

/-- A byte of a discarded transaction is clocked out as zero (R161, R166; Log 39). -/
theorem exec_byte_discarded {i : Instr} {b : Byte} (ht : (s.port p).txn = .discarded)
    (hi : i ∈ [.writePixels p .code, .writeContinue p .code, .readPixels p .code, .pixelDataByte p b,
      .pixelByteDiscarded p, .readbackByte p]) : exec i s = .next (s.clockZeros p 1) := by
  have untaken : s.clockUntaken p = s.clockZeros p 1 := by rw [State.clockUntaken, ht]
  have code (begin : PortState → PortState) : s.takeCode p begin = s.clockZeros p 1 := by
    simp only [State.takeCode, s.opened_of_open p (by simp [ht]), ht, untaken]
  simp only [List.mem_cons, List.not_mem_nil, or_false] at hi
  obtain rfl | rfl | rfl | rfl | rfl | rfl := hi
  · exact congrArg _ (code _)
  · exact congrArg _ (code _)
  · exact congrArg _ (code _)
  · simp only [exec, execPixelDataByte, ht, untaken]
  · simp only [exec, execPixelByteDiscarded, ht, untaken]
  · simp only [exec, execReadbackByte, ht, untaken]

/-! ## A command whose select is high -/

/-- Once the falling edge has been taken it is not taken again. -/
theorem State.opened_opened (s : State) (p : Port) : (s.opened p).opened p = s.opened p :=
  State.opened_of_open _ _ (s.opened_txn p)

theorem State.transact_opened (s : State) (p : Port) (fr : Frame) (req : List Byte) (i : Instr) (e : State → State) :
    (s.opened p).transact p fr req i e = s.transact p fr req i e := by
  simp only [State.transact, State.opened_opened]

end Discarded

/-- Settles O11. -/
theorem transactionsOutOfTurn : Obligations.TransactionsOutOfTurn := by
  refine ⟨fun i p req more n s hi ht hs hf => ?_, fun p s ht => ⟨fun i req more n hi => ?_, fun taken hc => ?_,
    fun i hi => ?_, fun i b hi => exec_byte_discarded ht hi⟩, fun i p s hi ht => ?_⟩
  · rw [exec_request hi, State.transact_held _ _ _ _ _ _ ht ((frame_fits_iff more n _).2 hf) hs, isSleep_and]
    rfl
  · rw [exec_request hi, State.transact_discarded _ _ _ _ _ _ ht]
  · rw [exec_unknownCommand_discarded ht hc, State.closeDiscarded_eq]
  · rw [exec_rise_discarded ht hi, State.closeDiscarded_eq]
  · obtain ⟨fr, req, e, run⟩ := exec_portCommand hi
    have fallen : (s.selectFalls p).settle = s.opened p := by simp [State.opened, State.selectHigh, ht]
    refine ⟨s.opened p, by rw [exec_selectFall_closed ht, fallen], ?_⟩
    rw [run, run, State.transact_opened]

end Sys2Proof.Machine
end

section
/-! The Scheduler (R77 to R79, R94 to R96): O25. A request is eligible by the conditions of R78, read off the state; the
chosen one is the first of its urgency; and a reconsideration has lanes enough to go on until nothing is eligible, since
each allocation leaves one FREE lane fewer.
-/

namespace Sys2Proof.Machine

/-- Two rectangles in order meet exactly when they share a pixel: the later of their starts (R1). -/
theorem Rect.meets_iff_exists_has {r q : Rect} (hr : r.x0 ≤ r.x1 ∧ r.y0 ≤ r.y1) (hq : q.x0 ≤ q.x1 ∧ q.y0 ≤ q.y1) :
    r.meets q = true ↔ ∃ x, r.has x = true ∧ q.has x = true := by
  refine ⟨fun h => ⟨(max r.x0 q.x0, max r.y0 q.y0), ?_⟩, fun ⟨x, hx, hy⟩ => Rect.meets_of_has hx hy⟩
  simp only [Rect.meets, Bool.and_eq_true, decide_eq_true_eq] at h
  simp only [Rect.has_iff]
  omega

/-! ## Eligibility -/

section Scheduler

variable (s : State)

/-- A HOLD request is unobstructed when it meets no lane in use and no zone of the other port (R78). -/
theorem State.unobstructed_iff (q : Request) : s.unobstructed q = true ↔
    (∀ l, (s.lane l).state ≠ .free → q.rect.meets (s.lane l).rect = false) ∧
      ∀ z zone, s.zone z = some zone → zone.owner ≠ q.port → q.rect.meets zone.rect = false := by
  simp only [State.unobstructed, Bool.and_eq_true, List.all_eq_true, mem_laneIds, mem_zoneIds, forall_const,
    Bool.or_eq_true, decide_eq_true_eq, Bool.not_eq_true', or_iff_not_imp_left, ne_eq]
  refine and_congr_right fun _ => forall_congr' fun z => ?_
  cases s.zone z <;> simp [or_iff_not_imp_left]

theorem State.tableValid_iff : s.tableValid = true ↔ s.table.phase = .valid := by simp [State.tableValid]

/-- The conditions of R78. -/
theorem State.eligible_iff (older : List Request) (q : Request) : s.eligible older q = true ↔
    s.table.phase = .valid ∧ s.supply.state ≠ .halted ∧ (∃ l, (s.lane l).state = .free) ∧
      (∀ o ∈ older, q.rect.meets o.rect = false) ∧ (q.policy = .hold → s.unobstructed q = true) := by
  have policy : q.policy = .skip ∨ s.unobstructed q = true ↔ (q.policy = .hold → s.unobstructed q = true) := by
    cases q.policy <;> simp
  simp only [State.eligible, Bool.and_eq_true, Bool.or_eq_true, decide_eq_true_eq, List.any_eq_true, List.all_eq_true,
    Bool.not_eq_true', mem_laneIds, true_and, policy, s.tableValid_iff, and_assoc]

theorem State.eligibleAt_iff (i : Nat) : s.eligibleAt i = true ↔
    ∃ q, s.queue[i]? = some q ∧ s.eligible (s.queue.take i) q = true := by
  cases h : s.queue[i]? <;> simp [State.eligibleAt, h]

theorem State.eligibleAt_eq_false_iff (i : Nat) : s.eligibleAt i = false ↔
    ∀ q, s.queue[i]? = some q → s.eligible (s.queue.take i) q = false := by
  cases h : s.queue[i]? <;> simp [State.eligibleAt, h]

theorem State.eligibleAt_lt {i : Nat} (h : s.eligibleAt i = true) : i < s.queue.length := by
  obtain ⟨q, hq, -⟩ := (s.eligibleAt_iff i).1 h
  exact (List.getElem?_eq_some_iff.1 hq).1

/-! ## The choice -/

/-- Nothing is chosen exactly when nothing is eligible (R77). -/
theorem State.choose_eq_none_iff : s.choose = none ↔ ∀ i, s.eligibleAt i = false := by
  unfold State.choose
  simp only
  split
  · rename_i i hi
    simp only [reduceCtorEq, false_iff, not_forall, Bool.not_eq_false]
    exact ⟨i, (Bool.and_eq_true _ _ ▸ List.find?_some hi).1⟩
  · simp only [List.find?_eq_none, List.mem_range, Bool.not_eq_true]
    exact ⟨fun hn i => Bool.eq_false_iff.2 fun h => by simpa [h] using hn i (s.eligibleAt_lt h), fun hn i _ => hn i⟩

/-- The chosen place is urgent when an eligible one is, and the oldest of its urgency (R79). -/
theorem State.choose_first {i j : Nat} (h : s.choose = some i) (hj : s.eligibleAt j = true) :
    (s.urgentAt j = true → s.urgentAt i = true) ∧ (s.urgentAt j = s.urgentAt i → i ≤ j) := by
  have range := List.mem_range.2 (s.eligibleAt_lt hj)
  unfold State.choose at h
  simp only at h
  split at h
  · rename_i k hk
    obtain rfl := Option.some.inj h
    obtain ⟨here, -, before⟩ := List.find?_range_eq_some.1 hk
    simp only [Bool.and_eq_true] at here
    refine ⟨fun _ => here.2, fun hu => Nat.le_of_not_lt fun hlt => ?_⟩
    simpa [hj, hu, here.2] using before j hlt
  · rename_i hn
    obtain ⟨here, hi, before⟩ := List.find?_range_eq_some.1 h
    have ordinary {k : Nat} (hk : s.eligibleAt k = true) : s.urgentAt k = false := by
      simpa [hk] using List.find?_eq_none.1 hn k (List.mem_range.2 (s.eligibleAt_lt hk))
    refine ⟨fun hu => absurd hu (by simp [ordinary hj]), fun _ => Nat.le_of_not_lt fun hlt => ?_⟩
    simpa [hj] using before j hlt

/-- The lane given is the FREE one of the lowest number (R79). -/
theorem State.freeLane_eq_some {l : LaneId} (h : (s.lane l).state = .free)
    (hk : ∀ k, k < l → (s.lane k).state ≠ .free) :
    s.freeLane = some l := by
  have numbers : laneIds = List.finRange 15 := by decide
  rw [State.freeLane, numbers, List.find?_eq_some_iff_getElem]
  refine ⟨decide_eq_true h, l.val, by simp, by simp, fun j hj => ?_⟩
  simpa using hk ⟨j, by omega⟩ hj

theorem State.allocateNext_eq_none_iff : s.allocateNext = none ↔ s.choose = none := by
  refine ⟨fun h => ?_, fun h => by rw [State.allocateNext, h]; rfl⟩
  cases hc : s.choose with
  | none => rfl
  | some i =>
    obtain ⟨q, hq, he⟩ := (s.eligibleAt_iff i).1 (s.choose_eligible hc)
    obtain ⟨-, -, ⟨l, hl⟩, -⟩ := (s.eligible_iff _ q).1 he
    simp only [State.allocateNext, hc, hq, Option.bind_some, Option.map_eq_none_iff, State.freeLane,
      List.find?_eq_none] at h
    exact absurd (decide_eq_true hl) (h l (mem_laneIds l))

/-! ## Lanes enough -/

/-- An allocation leaves fewer FREE lanes (R95). -/
theorem State.lanesIn_free_allocate {i : Nat} {q : Request} {l : LaneId} (h : (s.lane l).state = .free) :
    ((s.allocate i q l).lanesIn .free).length < (s.lanesIn .free).length := by
  have rest : (s.allocate i q l).lanesIn .free = (s.lanesIn .free).filter fun k => decide (k ≠ l) := by
    rw [State.lanesIn, State.lanesIn, List.filter_filter]
    refine List.filter_congr fun k _ => ?_
    by_cases hk : k = l <;> simp [State.allocate_lane, hk, Lane.allocated]
  rw [rest]
  exact List.length_filter_lt_length_iff_exists.2 ⟨l, (s.mem_lanesIn _ _).2 h, by simp⟩

end Scheduler

/-- With as many allocations as lanes are FREE, nothing eligible is left (R77). -/
theorem reconsiderUpTo_choose (n : Nat) : ∀ s : State, (s.lanesIn .free).length ≤ n →
    (reconsiderUpTo n s).choose = none := by
  induction n with
  | zero =>
    intro s hs
    refine s.choose_eq_none_iff.2 fun i => ?_
    by_contra he
    obtain ⟨q, -, he⟩ := (s.eligibleAt_iff i).1 (by simpa using he)
    obtain ⟨-, -, ⟨l, hl⟩, -⟩ := (s.eligible_iff _ q).1 he
    have hm := (s.mem_lanesIn .free l).2 hl
    rw [List.length_eq_zero_iff.1 (Nat.le_zero.1 hs)] at hm
    exact absurd hm List.not_mem_nil
  | succ n ih =>
    intro s hs
    rw [reconsiderUpTo]
    split
    · rename_i t ht
      obtain ⟨i, q, l, -, -, hl, rfl⟩ := s.allocateNext_eq t ht
      have fewer := s.lanesIn_free_allocate (i := i) (q := q) (s.freeLane_spec hl)
      exact ih _ (by omega)
    · rename_i ht
      exact s.allocateNext_eq_none_iff.1 ht

theorem reconsiderUpTo_none (n : Nat) {s : State} (h : s.choose = none) : reconsiderUpTo n s = s := by
  cases n with
  | zero => rfl
  | succ n => rw [reconsiderUpTo, s.allocateNext_eq_none_iff.2 h]

/-- Once nothing eligible is left, one allocation more changes nothing. -/
theorem reconsiderUpTo_succ (n : Nat) : ∀ s : State, (reconsiderUpTo n s).choose = none →
    reconsiderUpTo (n + 1) s = reconsiderUpTo n s := by
  induction n with
  | zero => intro s h; exact reconsiderUpTo_none 1 h
  | succ n ih =>
    intro s h
    rw [reconsiderUpTo] at h ⊢
    conv_rhs => rw [reconsiderUpTo]
    split
    · rename_i t ht
      rw [ht] at h
      exact ih t h
    · rfl

theorem State.lanesIn_length_le (s : State) (st : LaneState) : (s.lanesIn st).length ≤ 15 :=
  List.length_filter_le _ _

theorem State.reconsider_choose (s : State) : s.reconsider.choose = none :=
  reconsiderUpTo_choose 15 s (s.lanesIn_length_le _)

theorem State.reconsider_of_none {s : State} (h : s.choose = none) : s.reconsider = s := reconsiderUpTo_none 15 h

/-- A reconsideration is an allocation and a reconsideration after it, while something is eligible (R77). -/
theorem State.reconsider_allocate {s : State} {i : Nat} {q : Request} {l : LaneId} (hc : s.choose = some i)
    (hq : s.queue[i]? = some q) (hl : s.freeLane = some l) : s.reconsider = (s.allocate i q l).reconsider := by
  have first : s.allocateNext = some (s.allocate i q l) := by simp [State.allocateNext, hc, hq, hl]
  have fewer := s.lanesIn_free_allocate (i := i) (q := q) (s.freeLane_spec hl)
  have most := s.lanesIn_length_le .free
  have enough := reconsiderUpTo_choose 14 (s.allocate i q l) (by omega)
  calc s.reconsider = reconsiderUpTo 14 (s.allocate i q l) := by rw [State.reconsider, reconsiderUpTo, first]
    _ = (s.allocate i q l).reconsider := (reconsiderUpTo_succ 14 _ enough).symm

/-- Settles O25. -/
theorem scheduler : Obligations.Scheduler := by
  refine ⟨fun r q h0 h1 h2 h3 => Rect.meets_iff_exists_has ⟨h0, h1⟩ ⟨h2, h3⟩, fun s => ⟨fun older q => ?_, ?_,
    fun i hi => ?_, fun i q l hi hq hl hk => s.reconsider_allocate hi hq (s.freeLane_eq_some hl hk),
    State.reconsider_of_none, s.reconsider_choose⟩⟩
  · rw [s.eligible_iff, s.unobstructed_iff]
  · simp only [s.choose_eq_none_iff, s.eligibleAt_eq_false_iff]
  · obtain ⟨q, hq, he⟩ := (s.eligibleAt_iff i).1 (s.choose_eligible hi)
    refine ⟨q, hq, he, fun j q' hq' he' => ?_⟩
    have first := s.choose_first hi ((s.eligibleAt_iff j).2 ⟨q', hq', he'⟩)
    simpa only [State.urgentAt, hq, hq'] using first

end Sys2Proof.Machine
end

section
/-! SUBMIT_UPDATE (R70 to R74), the zones (R87, R88) and the end of a retire walk (R128, R133, R134): O23, O26 and O50.
-/

namespace Sys2Proof.Machine

/-! ## SUBMIT_UPDATE -/

/-- The request bytes of a SUBMIT_UPDATE (R182). -/
abbrev submitBytes (tag mode : Byte) (x0 y0 x1 y1 : Nat) (pol urg : Byte) : List Byte :=
  [tag, mode] ++ coordinates x0 y0 x1 y1 ++ [pol, urg]

theorem byte_eq_zero_or_one {b : Byte} (h : ¬ 1 < b.toNat) : b = 0 ∨ b = 1 := by
  simp only [← BitVec.toNat_inj]
  simp
  omega

theorem parsePolicy_eq (b : Byte) : parsePolicy b =
    if 1 < b.toNat then none else some (if b = 0 then .hold else .skip) := by
  split
  · rename_i h
    rw [parsePolicy, if_neg (ne_of_lt_toNat h 0 (by decide)), if_neg (ne_of_lt_toNat h 1 (by decide))]
  · rename_i h
    rcases byte_eq_zero_or_one h with rfl | rfl <;> rfl

theorem parseFlag_eq (b : Byte) : parseFlag b = if 1 < b.toNat then none else some (decide (b = 1)) := by
  split
  · exact parseFlag_none ‹_›
  · rename_i h
    rcases byte_eq_zero_or_one h with rfl | rfl <;> rfl

/-- What the bytes of a SUBMIT_UPDATE spell, in port coordinates, unless one of its values is refused (R71). -/
theorem parseSubmit_bytes (p : Port) (tag mode pol urg : Byte) {x0 y0 x1 y1 : Nat} (h0 : x0 < 65536) (h1 : y0 < 65536)
    (h2 : x1 < 65536) (h3 : y1 < 65536) : parseSubmit p (submitBytes tag mode x0 y0 x1 y1 pol urg) =
      if tag = 0 ∨ 7 < mode.toNat ∨ 1 < pol.toNat ∨ 1 < urg.toNat ∨ ¬ (x0 ≤ x1 ∧ y0 ≤ y1) then none
      else some ⟨p, tag.toNat, mode.toNat, ⟨x0, y0, x1, y1⟩, if pol = 0 then .hold else .skip, decide (urg = 1)⟩ := by
  have bytes : submitBytes tag mode x0 y0 x1 y1 pol urg = tag :: mode :: (coordinates x0 y0 x1 y1 ++ [pol, urg]) := rfl
  have hpol : (coordinates x0 y0 x1 y1 ++ [pol, urg])[8]? = some pol := by simp
  have hurg : (coordinates x0 y0 x1 y1 ++ [pol, urg])[9]? = some urg := by simp
  have hrect : (coordinates x0 y0 x1 y1 ++ [pol, urg]).take 8 = coordinates x0 y0 x1 y1 :=
    List.take_left' (coordinates_length ..)
  have hord : Rect.ordered ⟨x0, y0, x1, y1⟩ = false ↔ ¬ (x0 ≤ x1 ∧ y0 ≤ y1) := by
    rw [← Bool.not_eq_true, Rect.ordered, Bool.and_eq_true, decide_eq_true_eq, decide_eq_true_eq]
  simp only [bytes, parseSubmit, hpol, hurg, hrect, Option.getD_some, parsePolicy_eq, parseFlag_eq,
    parseRect_coordinates x0 y0 x1 y1 h0 h1 h2 h3, hord]
  by_cases hp : 1 < pol.toNat
  · simp [hp]
  · by_cases hu : 1 < urg.toNat
    · simp [hp, hu]
    · simp [hp, hu]

/-- A tag is in use in the stream, in the queue or in a lane (R72, R73). -/
theorem State.tagBusy_iff_exists (s : State) (p : Port) (tag : Nat) : s.tagBusy p tag = true ↔
    (∃ q ∈ s.streamRequests p, q.tag = tag) ∨ (∃ q ∈ s.queue, q.port = p ∧ q.tag = tag) ∨
      ∃ l, (s.lane l).state ≠ .free ∧ (s.lane l).owner = p ∧ (s.lane l).tag = tag := by
  simp only [State.tagBusy, Bool.or_eq_true, List.any_eq_true, Bool.and_eq_true, decide_eq_true_eq, mem_laneIds,
    true_and, and_assoc, or_assoc]

section Submit

variable (s : State) (p : Port) (n : Nat)

/-- A rise leaves the streams, and so the tags and the places in use. -/
@[simp] theorem State.risen_streamRequests (k : Port) :
    (s.setPort p (s.risen p n)).streamRequests k = s.streamRequests k := by
  rw [State.streamRequests_setPort]
  split
  · rename_i h; rw [h]; rfl
  · rfl

@[simp] theorem State.risen_tagBusy (tag : Nat) : (s.setPort p (s.risen p n)).tagBusy p tag = s.tagBusy p tag := by
  simp [State.tagBusy]

@[simp] theorem State.risen_placesHeld : (s.setPort p (s.risen p n)).placesHeld = s.placesHeld := by
  simp [State.placesHeld]

@[simp] theorem State.risen_placesOf : (s.setPort p (s.risen p n)).placesOf p = s.placesOf p := by
  simp [State.placesOf]

/-- An entry joins the stream of a port whose transaction ends (R59). -/
theorem State.pushEntry_risen (e : Entry) (r : Result) :
    ((s.setPort p (s.risen p n)).pushEntry p e).setResult p r =
      s.setPort p { s.ended p n r with stream := (s.port p).stream ++ [e] } := by
  simp [State.pushEntry, State.setResult_eq, State.risen, State.ended]

/-- The tests of R72 and R74 in their order, and the accepted request: SUBMIT_UPDATE once its values are in range. -/
theorem effectSubmitUpdate_parsed {req : List Byte} {q : Request} (h : parseSubmit p req = some q) :
    effectSubmitUpdate p req (s.setPort p (s.risen p n)) =
      if s.supply.state = .halted then s.ends p n .halted
      else if s.tagBusy p q.tag = true then s.ends p n .duplicateTag
      else if 24 < s.placesHeld + 1 ∨ 16 < s.placesOf p + 1 then s.ends p n .queueFull
      else s.setPort p { s.ended p n (clampResult (clampToArea (s.port p).ctx s.width s.height q.rect ≠ q.rect)) with
        stream := (s.port p).stream ++ [.submit { q with
          rect := rectToPanel (s.port p).ctx s.width s.height
            (clampToArea (s.port p).ctx s.width s.height q.rect) }] } := by
  have ctx : ((s.setPort p (s.risen p n)).port p).ctx = (s.port p).ctx := by rw [State.setPort_port, if_pos rfl]; rfl
  simp only [effectSubmitUpdate, h, State.setResult_risen, State.risen_tagBusy, State.risen_placesHeld,
    State.risen_placesOf, State.pushEntry_risen, ctx, Config.queuePlaces, Config.portPlaces, State.setPort_supply,
    State.setPort_width, State.setPort_height]

end Submit

/-- Settles O23. -/
theorem submitUpdate : Obligations.SubmitUpdate := by
  intro p s tag mode pol urg x0 y0 x1 y1 ht h0 h1 h2 h3 _ _ bad busy full c right bottom r q
  have run {t : State} (he : effectSubmitUpdate p (submitBytes tag mode x0 y0 x1 y1 pol urg)
      (s.setPort p (s.risen p 13)) = t) :
      exec (.submitUpdate p (submitBytes tag mode x0 y0 x1 y1 pol urg)) s = .next t.settle :=
    exec_effect (i := .submitUpdate p (submitBytes tag mode x0 y0 x1 y1 pol urg)) rfl ht (by simp) he
  have parsed := parseSubmit_bytes p tag mode pol urg h0 h1 h2 h3
  have hbusy : s.tagBusy p tag.toNat = true ↔ busy := s.tagBusy_iff_exists p tag.toNat
  have hfull : (24 < s.placesHeld + 1 ∨ 16 < s.placesOf p + 1) ↔ full := by
    rw [State.placesHeld, State.placesOf, List.countP_eq_length_filter]
  have taken (hgood : ¬ bad) := effectSubmitUpdate_parsed s p 13 (parsed.trans (if_neg hgood))
  refine ⟨fun hbad => run ?_, fun hgood hh => run ?_, fun hgood hh hb => run ?_, fun hgood hh hb hf => run ?_,
    fun hgood hh hb hf => run ?_⟩
  · rw [effectSubmitUpdate, parsed, if_pos hbad]
    exact s.setResult_risen p 13 .badParam
  · rw [taken hgood, if_pos hh]
  · rw [taken hgood, if_neg hh, if_pos (hbusy.2 hb)]
  · rw [taken hgood, if_neg hh, if_neg (mt hbusy.1 hb), if_pos (hfull.2 hf)]
  · rw [taken hgood, if_neg hh, if_neg (mt hbusy.1 hb), if_neg (mt hfull.1 hf), clampResult_area]
    rfl

/-! ## Operations that leave their port -/

/-- A command's own result, given before or behind an operation that leaves its port. -/
theorem LeavesPort.setResult {p : Port} {f : State → State} (hf : LeavesPort p f) (s : State) (r : Result) :
    (f s).setResult p r = f (s.setResult p r) := by
  rw [State.setResult_eq, State.setResult_eq, hf.port, ← hf]

theorem LeavesPort.comp {p : Port} {f g : State → State} (hg : LeavesPort p g) (hf : LeavesPort p f) :
    LeavesPort p fun s => g (f s) := fun s v => (congrArg g (hf s v)).trans (hg (f s) v)

theorem leavesPort_setZone (p : Port) (z : Fin 4) (v : Option Zone) : LeavesPort p fun s => s.setZone z v := by
  intro s w
  cases p <;> rfl

theorem leavesPort_reconsider (p : Port) : LeavesPort p State.reconsider := fun s v => s.setPort_reconsider p v

/-! ## Zones -/

theorem parseZone_none {b : Byte} (h : 3 < b.toNat) : parseZone b = none := dif_neg (by omega)

theorem parseZone_some {b : Byte} {z : Fin 4} (h : b.toNat = z.val) : parseZone b = some z := by
  rw [parseZone, dif_pos (by omega)]
  exact congrArg some (Fin.ext h)

section Zones

variable (s : State) (p : Port) (n : Nat)

/-- RESERVE_ZONE with coordinates in order (R87). -/
theorem effectReserveZone_risen {zb : Byte} {z : Fin 4} {x0 y0 x1 y1 : Nat} (hz : zb.toNat = z.val) (h0 : x0 < 65536)
    (h1 : y0 < 65536) (h2 : x1 < 65536) (h3 : y1 < 65536) (ho : x0 ≤ x1 ∧ y0 ≤ y1) :
    effectReserveZone p (zb :: coordinates x0 y0 x1 y1) (s.setPort p (s.risen p n)) =
      if (s.zone z).any (fun zone => decide (zone.owner ≠ p)) = true then s.ends p n .notOwner
      else (s.ends p n (clampResult
          (clampToArea (s.port p).ctx s.width s.height ⟨x0, y0, x1, y1⟩ ≠ ⟨x0, y0, x1, y1⟩))).setZone z
        (some ⟨p, rectToPanel (s.port p).ctx s.width s.height
          (clampToArea (s.port p).ctx s.width s.height ⟨x0, y0, x1, y1⟩), s.zoneDuration⟩) := by
  have ctx : ((s.setPort p (s.risen p n)).port p).ctx = (s.port p).ctx := by rw [State.setPort_port, if_pos rfl]; rfl
  have hord : Rect.ordered ⟨x0, y0, x1, y1⟩ = true := by simpa [Rect.ordered] using ho
  simp only [effectReserveZone, List.head?_cons, Option.bind_some, parseZone_some hz, List.drop_one, List.tail_cons,
    parseRect_coordinates x0 y0 x1 y1 h0 h1 h2 h3, hord, Bool.true_eq_false, if_false, ctx, State.setPort_zone,
    State.setPort_width, State.setPort_height, State.setPort_zoneDuration, State.setResult_risen,
    (leavesPort_setZone p z _).setResult_risen]

/-- RESERVE_ZONE of a zone that does not exist, or with coordinates out of order (R87). -/
theorem effectReserveZone_refused {zb : Byte} {x0 y0 x1 y1 : Nat} (h0 : x0 < 65536) (h1 : y0 < 65536) (h2 : x1 < 65536)
    (h3 : y1 < 65536) (h : 3 < zb.toNat ∨ ¬ (x0 ≤ x1 ∧ y0 ≤ y1)) :
    effectReserveZone p (zb :: coordinates x0 y0 x1 y1) (s.setPort p (s.risen p n)) = s.ends p n .badParam := by
  simp only [effectReserveZone, List.head?_cons, Option.bind_some, List.drop_one, List.tail_cons,
    parseRect_coordinates x0 y0 x1 y1 h0 h1 h2 h3, State.setResult_risen]
  rcases h with hz | ho
  · rw [parseZone_none hz]
  · have hord : Rect.ordered ⟨x0, y0, x1, y1⟩ = false := by simpa [Rect.ordered] using ho
    cases parseZone zb with
    | none => rfl
    | some z => exact if_pos hord

/-- RELEASE_ZONE of a zone that is free (R88). -/
theorem effectReleaseZone_free {zb : Byte} {z : Fin 4} (hz : zb.toNat = z.val) (hs : s.zone z = none) :
    effectReleaseZone p [zb] (s.setPort p (s.risen p n)) = s.ends p n .ok := by
  simp only [effectReleaseZone, List.head?_cons, Option.bind_some, parseZone_some hz, State.setPort_zone, hs,
    State.setResult_risen]

/-- RELEASE_ZONE of an active zone, by its owner or not (R88). -/
theorem effectReleaseZone_active {zb : Byte} {z : Fin 4} {zone : Zone} (hz : zb.toNat = z.val)
    (hs : s.zone z = some zone) : effectReleaseZone p [zb] (s.setPort p (s.risen p n)) =
      if zone.owner = p then ((s.ends p n .ok).setZone z none).reconsider else s.ends p n .notOwner := by
  have leaves := (leavesPort_reconsider p).comp (leavesPort_setZone p z none)
  simp only [effectReleaseZone, List.head?_cons, Option.bind_some, parseZone_some hz, State.setPort_zone, hs,
    State.setResult_risen, leaves.setResult_risen]

end Zones

/-- Settles O26. -/
theorem reserveAndRelease : Obligations.ReserveAndRelease := by
  refine ⟨fun p s zb x0 y0 x1 y1 ht h0 h1 h2 h3 => ?_, fun p s zb ht => ?_⟩
  · have run {t : State} (he : effectReserveZone p (zb :: coordinates x0 y0 x1 y1) (s.setPort p (s.risen p 10)) = t) :
        exec (.reserveZone p (zb :: coordinates x0 y0 x1 y1)) s = .next t.settle :=
      exec_effect (i := .reserveZone p (zb :: coordinates x0 y0 x1 y1)) rfl ht (by simp) he
    refine ⟨fun h => run (effectReserveZone_refused s p 10 h0 h1 h2 h3 h), fun z hz ho =>
      ⟨fun zone hs hne => run ?_, fun hown => run ?_⟩⟩
    · rw [effectReserveZone_risen s p 10 hz h0 h1 h2 h3 ho, if_pos (by simpa [hs] using hne)]
    · have own : ¬ (s.zone z).any (fun zone => decide (zone.owner ≠ p)) = true := by
        simpa [Option.any_eq_true] using hown
      rw [effectReserveZone_risen s p 10 hz h0 h1 h2 h3 ho, if_neg own, clampResult_area]
      rfl
  · have run {t : State} (he : effectReleaseZone p [zb] (s.setPort p (s.risen p 2)) = t) :
        exec (.releaseZone p [zb]) s = .next t.settle := exec_effect (i := .releaseZone p [zb]) rfl ht rfl he
    refine ⟨fun hz => run ?_, fun z hz => ⟨fun hs => run (effectReleaseZone_free s p 2 hz hs),
      fun zone hs => ⟨fun ho => run ?_, fun ho => run ?_⟩⟩⟩
    · simp only [effectReleaseZone, List.head?_cons, Option.bind_some, parseZone_none hz, State.setResult_risen]
    · rw [effectReleaseZone_active s p 2 hz hs, if_pos ho]
    · rw [effectReleaseZone_active s p 2 hz hs, if_neg ho]

/-! ## The end of a retire walk -/

theorem State.startRetire_idle {s : State} {l : LaneId} {rest : List LaneId} (hw : s.retire = none)
    (hl : s.retireList = l :: rest) : s.startRetire =
      s.withRetire (some ⟨l, some ((s.lane l).rect.x0, (s.lane l).rect.y0),
        (s.modeRecord (s.lane l).finalMode).clearing, (s.modeRecord (s.lane l).finalMode).cost⟩) := by
  rw [State.startRetire, hw, hl]
  rfl

theorem State.startRetire_of_busy {s : State} (h : s.retire ≠ none ∨ s.retireList = []) : s.startRetire = s := by
  unfold State.startRetire
  split
  · rename_i hw hl
    rcases h with h | h
    · exact absurd hw h
    · rw [hl] at h
      cases h
  · rfl

theorem exec_retireWalkEnd_complete {s : State} {w : RetireWalk} (hw : s.retire = some w) (hp : w.pos = none) :
    exec .retireWalkEnd s = .next (((((((s.reportLane w.lane ((s.lane w.lane).doneRecord
      ((s.lane w.lane).outcome.getD .completed))).setLane w.lane Lane.rest).withRetireList
        (s.retireList.filter fun k => decide (k ≠ w.lane))).withRetire none).reconsider).startRetire).settle) := by
  have lists (d : DoneRecord) : (s.reportLane w.lane d).retireList = s.retireList := by
    unfold State.reportLane
    split
    · rw [State.appendDone_eq, State.setPort_retireList]
    · rfl
  have hs : exec .retireWalkEnd s = execRetireWalkEnd s := rfl
  simp only [hs, execRetireWalkEnd, hw, hp, lists]

/-- Settles O50. -/
theorem retireWalkEnd : Obligations.RetireWalkEnd := by
  refine ⟨fun s w o hw hp ho => ?_, fun s => ⟨fun l rest hw hl => State.startRetire_idle hw hl,
    State.startRetire_of_busy⟩⟩
  rw [exec_retireWalkEnd_complete hw hp, ho]
  rfl

end Sys2Proof.Machine
end

section
/-! WITHDRAW (R84, R107, R110, R111, R124, R125): O24. The port's request of the tag is found in the stream, in the queue
or in a lane; what is done there leaves the port but for its done queue, so that the result may be given first.
-/

namespace Sys2Proof.Machine

/-! ## Where a request is found -/

/-- The first element of its kind is found, and removed, where the elements before it are of another kind. -/
theorem find?_eraseP_first {α : Type} {f : α → Bool} {before : List α} {x : α} (after : List α) (hx : f x = true)
    (hb : ∀ y ∈ before, ¬ f y = true) :
    (before ++ x :: after).find? f = some x ∧ (before ++ x :: after).eraseP f = before ++ after := by
  refine ⟨?_, ?_⟩
  · rw [List.find?_append, List.find?_eq_none.2 hb, List.find?_cons_of_pos hx, Option.none_or]
  · rw [List.eraseP_append_right _ hb, List.eraseP_cons_of_pos hx]

theorem Entry.hasTag_iff {n : Nat} {e : Entry} : e.hasTag n = true ↔ ∃ q, e = .submit q ∧ q.tag = n := by
  cases e <;> simp [Entry.hasTag]

/-- The request is the port's and has the tag (R84). -/
def Request.isOf (p : Port) (n : Nat) (q : Request) : Bool := decide (q.port = p) && decide (q.tag = n)

theorem Request.isOf_iff {p : Port} {n : Nat} {q : Request} : q.isOf p n = true ↔ q.port = p ∧ q.tag = n := by
  simp [Request.isOf]

/-- A lane in use has the port's request of the tag (R84). -/
abbrev State.laneHolds (s : State) (p : Port) (n : Nat) (l : LaneId) : Prop :=
  (s.lane l).state ≠ .free ∧ (s.lane l).owner = p ∧ (s.lane l).tag = n

theorem State.laneOfTag_holds {s : State} {p : Port} {n : Nat} {l : LaneId} (h : s.laneOfTag p n = some l) :
    s.laneHolds p n l := by
  simpa only [Bool.and_eq_true, decide_eq_true_eq, and_assoc] using List.find?_some h

theorem State.laneOfTag_eq_none_iff {s : State} {p : Port} {n : Nat} :
    s.laneOfTag p n = none ↔ ∀ l, ¬ s.laneHolds p n l := by
  simp only [State.laneOfTag, List.find?_eq_none, mem_laneIds, forall_const, Bool.and_eq_true, decide_eq_true_eq,
    and_assoc]

/-- The only lane that has the request is the one found (R73, R84). -/
theorem State.laneOfTag_of_unique {s : State} {p : Port} {n : Nat} {l : LaneId} (h : s.laneHolds p n l)
    (only : ∀ k, s.laneHolds p n k → k = l) : s.laneOfTag p n = some l := by
  cases hf : s.laneOfTag p n with
  | none => exact absurd h (State.laneOfTag_eq_none_iff.1 hf l)
  | some k => rw [only k (State.laneOfTag_holds hf)]

/-! ## What leaves the port -/

section Leaves

variable (p : Port)

theorem leavesPort_withQueue (v : List Request) : LeavesPort p fun s => s.withQueue v := by
  intro s w; cases p <;> rfl

theorem leavesPort_setLane (l : LaneId) (v : Lane) : LeavesPort p fun s => s.setLane l v := by
  intro s w; cases p <;> rfl

theorem leavesPort_withSurveyList (v : List LaneId) : LeavesPort p fun s => s.withSurveyList v := by
  intro s w; cases p <;> rfl

theorem leavesPort_withArmingList (v : List LaneId) : LeavesPort p fun s => s.withArmingList v := by
  intro s w; cases p <;> rfl

theorem leavesPort_withRetireList (v : List LaneId) : LeavesPort p fun s => s.withRetireList v := by
  intro s w; cases p <;> rfl

theorem leavesPort_startRetire : LeavesPort p State.startRetire := by
  intro s v
  by_cases h : s.retire ≠ none ∨ s.retireList = []
  · rw [State.startRetire_of_busy h, State.startRetire_of_busy (by simpa using h)]
  · simp only [not_or, not_not] at h
    obtain ⟨l, rest, hl⟩ := List.exists_cons_of_ne_nil h.2
    rw [State.startRetire_idle h.1 hl, State.startRetire_idle (by simpa using h.1) (by simpa using hl)]
    cases p <;> rfl

theorem leavesPort_joinRetire (k : RetireKind) (o : UpdateOutcome) (l : LaneId) :
    LeavesPort p fun s => State.joinRetire k o s l := by
  intro s v
  simp only [State.joinRetire_eq, State.setPort_lane, State.setPort_retireList, leavesPort_setLane p l _ s v,
    leavesPort_withRetireList p _ _ v]

theorem leavesPort_closeSurvey : LeavesPort p State.closeSurvey := by
  intro s v
  simp only [State.closeSurvey, State.setPort_survey]
  cases s.survey with
  | none => rfl
  | some w => cases p <;> rfl

end Leaves

/-- An accepted command's result and a done record of its port do not touch each other (R170, R175). -/
theorem State.appendDone_setResult_ok (s : State) (p : Port) (d : DoneRecord) :
    (s.appendDone p d).setResult p .ok = (s.setResult p .ok).appendDone p d := by
  simp only [State.appendDone_eq, State.setResult_eq, State.setPort_port, if_true, State.setPort_setPort]
  split <;> rfl

/-! ## The stream and the queue -/

section Withdraw

variable {s : State} {p : Port} {n : Nat} {tag : Byte}

theorem effectWithdraw_refused : effectWithdraw p [0] (s.setPort p (s.risen p n)) = s.ends p n .badParam :=
  s.setResult_risen p n .badParam

theorem toNat_ne_zero (h0 : tag ≠ 0) : tag.toNat ≠ 0 := fun h => h0 (BitVec.eq_of_toNat_eq h)

/-- WITHDRAW of a tag looks in the stream, then in the queue, then in the lanes (R84). -/
theorem effectWithdraw_eq (h0 : tag ≠ 0) (t : State) : effectWithdraw p [tag] t =
    ((t.port p).stream.find? (Entry.hasTag tag.toNat)).elim
      ((t.queue.find? (Request.isOf p tag.toNat)).elim
        ((t.laneOfTag p tag.toNat).elim (t.setResult p .unknownTag) (t.withdrawLane p))
        fun q => (((t.withQueue (t.queue.eraseP (Request.isOf p tag.toNat))).appendDone p
          (DoneRecord.unsurveyed tag.toNat q.mode .withdrawn)).reconsider).setResult p .ok)
      fun e => ((t.setPort p { t.port p with stream := (t.port p).stream.eraseP (Entry.hasTag tag.toNat) }).appendDone p
        (DoneRecord.unsurveyed tag.toNat ((e.request.map Request.mode).getD 0) .withdrawn)).setResult p .ok := by
  have same : (fun q : Request => decide (q.port = p) && decide (q.tag = tag.toNat)) = Request.isOf p tag.toNat := rfl
  unfold effectWithdraw
  generalize hk : (([tag] : List Byte).head?.getD 0).toNat = k
  obtain rfl : tag.toNat = k := hk
  simp only [toNat_ne_zero h0, if_false, same]
  cases (t.port p).stream.find? (Entry.hasTag tag.toNat) with
  | some e => rfl
  | none =>
    cases t.queue.find? (Request.isOf p tag.toNat) with
    | some q => rfl
    | none => cases t.laneOfTag p tag.toNat <;> rfl

/-- A request of the stream is removed, with its record (R84). -/
theorem effectWithdraw_stream {before after : List Entry} {q : Request} (h0 : tag ≠ 0)
    (hs : (s.port p).stream = before ++ .submit q :: after) (hq : q.tag = tag.toNat)
    (first : ∀ q', Entry.submit q' ∈ before → q'.tag ≠ tag.toNat) :
    effectWithdraw p [tag] (s.setPort p (s.risen p n)) =
      ((s.ends p n .ok).setPort p { (s.ends p n .ok).port p with stream := before ++ after }).appendDone p
        (DoneRecord.unsurveyed tag.toNat q.mode .withdrawn) := by
  have stream : (s.risen p n).stream = before ++ .submit q :: after := hs
  obtain ⟨found, removed⟩ := find?_eraseP_first after (Entry.hasTag_iff.2 ⟨q, rfl, hq⟩) (before := before) (by
    intro e he hf
    obtain ⟨q', rfl, hq'⟩ := Entry.hasTag_iff.1 hf
    exact first q' he hq')
  have rest : ((s.setPort p (s.risen p n)).setPort p { s.risen p n with stream := before ++ after }).setResult p .ok =
      (s.ends p n .ok).setPort p { (s.ends p n .ok).port p with stream := before ++ after } := by
    simp [State.setResult_eq, State.ends, State.ended, State.risen]
  simp only [effectWithdraw_eq h0, State.setPort_port, if_true, stream, found, removed, Option.elim_some, Entry.request,
    Option.map_some, Option.getD_some, State.appendDone_setResult_ok, rest]

/-- Nothing of the tag is in the stream. -/
theorem find?_hasTag_eq_none {stream : List Entry} {k : Nat} (h : ¬ ∃ q, Entry.submit q ∈ stream ∧ q.tag = k) :
    stream.find? (Entry.hasTag k) = none := by
  refine List.find?_eq_none.2 fun e he hf => ?_
  obtain ⟨q, rfl, hq⟩ := Entry.hasTag_iff.1 hf
  exact h ⟨q, he, hq⟩

/-- A request of the queue is removed, with its record, and the queue reconsidered (R77, R84). -/
theorem effectWithdraw_queue {before after : List Request} {q : Request} (h0 : tag ≠ 0)
    (hs : ¬ ∃ q, Entry.submit q ∈ (s.port p).stream ∧ q.tag = tag.toNat) (hqueue : s.queue = before ++ q :: after)
    (hp : q.port = p) (hq : q.tag = tag.toNat) (first : ∀ q' ∈ before, q'.port = p → q'.tag ≠ tag.toNat) :
    effectWithdraw p [tag] (s.setPort p (s.risen p n)) =
      (((s.ends p n .ok).withQueue (before ++ after)).appendDone p
        (DoneRecord.unsurveyed tag.toNat q.mode .withdrawn)).reconsider := by
  have stream : (s.risen p n).stream.find? (Entry.hasTag tag.toNat) = none := find?_hasTag_eq_none hs
  obtain ⟨found, removed⟩ := find?_eraseP_first after (Request.isOf_iff.2 ⟨hp, hq⟩) (before := before) fun q' hq' hf =>
    first q' hq' (Request.isOf_iff.1 hf).1 (Request.isOf_iff.1 hf).2
  simp only [effectWithdraw_eq h0, State.setPort_port, if_true, stream, Option.elim_none, State.setPort_queue, hqueue,
    found, removed, Option.elim_some, State.setResult_reconsider, State.appendDone_setResult_ok,
    (leavesPort_withQueue p _).setResult_risen]

/-! ## The lanes -/

/-- A tag that neither stream nor queue has is sought in the lanes (R84). -/
theorem effectWithdraw_beyondQueue (h0 : tag ≠ 0) (hs : ¬ ∃ q, Entry.submit q ∈ (s.port p).stream ∧ q.tag = tag.toNat)
    (hqueue : ¬ ∃ q ∈ s.queue, q.port = p ∧ q.tag = tag.toNat) :
    effectWithdraw p [tag] (s.setPort p (s.risen p n)) = (s.laneOfTag p tag.toNat).elim (s.ends p n .unknownTag)
      ((s.setPort p (s.risen p n)).withdrawLane p) := by
  have stream : (s.risen p n).stream.find? (Entry.hasTag tag.toNat) = none := find?_hasTag_eq_none hs
  have queue : s.queue.find? (Request.isOf p tag.toNat) = none :=
    List.find?_eq_none.2 fun q hq hf => hqueue ⟨q, hq, Request.isOf_iff.1 hf⟩
  have lanes : (s.setPort p (s.risen p n)).laneOfTag p tag.toNat = s.laneOfTag p tag.toNat := by
    simp only [State.laneOfTag, State.setPort_lane]
  simp only [effectWithdraw_eq h0, State.setPort_port, if_true, stream, Option.elim_none, State.setPort_queue, queue,
    lanes, State.setResult_risen]

variable {l : LaneId}

/-- A PENDING lane is FREE again, with its record when it reports (R110). -/
theorem State.withdrawLane_pending (h : (s.lane l).state = .pending) (hp : (s.lane l).owner = p) :
    (s.setPort p (s.risen p n)).withdrawLane p l =
      ((((if (s.lane l).report then (s.ends p n .ok).appendDone p
          (DoneRecord.unsurveyed (s.lane l).tag (s.lane l).requestedMode .withdrawn) else s.ends p n .ok).setLane l
        Lane.rest).withSurveyList (s.surveyList.filter fun k => decide (k ≠ l)))).reconsider := by
  have leaves := (leavesPort_withSurveyList p (s.surveyList.filter fun k => decide (k ≠ l))).comp
    (leavesPort_setLane p l Lane.rest)
  simp only [State.withdrawLane, State.setPort_lane, h, State.setResult_reconsider, State.endPending_eq, hp,
    State.setPort_surveyList, leaves.setResult]
  split
  · rw [State.appendDone_setResult_ok, State.setResult_risen]
  · rw [State.setResult_risen]

/-- The lane in SURVEY is decided and released (R107, R111). -/
theorem State.withdrawLane_survey (h : (s.lane l).state = .survey) :
    (s.setPort p (s.risen p n)).withdrawLane p l =
      (State.joinRetire .release .withdrawn (s.ends p n .ok).closeSurvey l).startRetire := by
  have leaves := (leavesPort_startRetire p).comp ((leavesPort_joinRetire p .release .withdrawn l).comp
    (leavesPort_closeSurvey p))
  simp only [State.withdrawLane, State.setPort_lane, h, leaves.setResult_risen]

/-- An ARMED lane leaves the arming list and is released (R124). -/
theorem State.withdrawLane_armed (h : (s.lane l).state = .armed) :
    (s.setPort p (s.risen p n)).withdrawLane p l =
      (State.joinRetire .release .withdrawn ((s.ends p n .ok).withArmingList
        (s.armingList.filter fun k => decide (k ≠ l))) l).startRetire := by
  have leaves := (leavesPort_startRetire p).comp ((leavesPort_joinRetire p .release .withdrawn l).comp
    (leavesPort_withArmingList p (s.armingList.filter fun k => decide (k ≠ l))))
  simp only [State.withdrawLane, State.setPort_lane, h, State.setPort_armingList, leaves.setResult_risen]

theorem State.withdrawLane_running (h : (s.lane l).state = .running) :
    (s.setPort p (s.risen p n)).withdrawLane p l = (s.ends p n .ok).setLane l { s.lane l with abort := true } := by
  simp only [State.withdrawLane, State.setPort_lane, h, State.mapLane_eq, (leavesPort_setLane p l _).setResult_risen]

theorem State.withdrawLane_retiring (h : (s.lane l).state = .retiring) :
    (s.setPort p (s.risen p n)).withdrawLane p l = s.ends p n .tooLate := by
  simp only [State.withdrawLane, State.setPort_lane, h, State.setResult_risen]

end Withdraw

@[simp] theorem State.ends_lane (s : State) (p : Port) (n : Nat) (r : Result) (l : LaneId) :
    (s.ends p n r).lane l = s.lane l := s.setPort_lane p _ l

@[simp] theorem State.ends_retireList (s : State) (p : Port) (n : Nat) (r : Result) :
    (s.ends p n r).retireList = s.retireList := s.setPort_retireList p _

@[simp] theorem State.ends_survey (s : State) (p : Port) (n : Nat) (r : Result) :
    (s.ends p n r).survey = s.survey := s.setPort_survey p _

theorem State.setLane_setLane (s : State) (l : LaneId) (v w : Lane) : (s.setLane l v).setLane l w = s.setLane l w := by
  simp [State.setLane, State.withLanes]

/-- The walk of a lane's survey stops, and the lane joins the retire list (R107, R111). -/
theorem State.joinRetire_closeSurvey {s : State} {w : Survey} (hw : s.survey = some w) (k : RetireKind)
    (o : UpdateOutcome) : State.joinRetire k o s.closeSurvey w.lane = ((s.withSurvey none).setLane w.lane
      { (s.lane w.lane).decided w.mode with state := .retiring, kind := some k, outcome := some o }).withRetireList
        (s.retireList ++ [w.lane]) := by
  have closed : s.closeSurvey = (s.withSurvey none).setLane w.lane ((s.lane w.lane).decided w.mode) := by
    rw [State.closeSurvey_eq, hw]
    rfl
  rw [closed, State.joinRetire_eq, State.setLane_setLane, State.setLane_lane, if_pos rfl]
  rfl

/-- Settles O24: by the place of the request. -/
theorem withdraw : Obligations.Withdraw := by
  intro p s tag ht n _ u record inStream inQueue holds released
  have run {t : State} (he : effectWithdraw p [tag] (s.setPort p (s.risen p 2)) = t) :
      exec (.withdraw p [tag]) s = .next t.settle := exec_effect (i := .withdraw p [tag]) rfl ht rfl he
  refine ⟨fun h0 => run ?_, fun before q after h0 hs hq first => run (effectWithdraw_stream h0 hs hq first),
    fun before q after h0 hs hqueue hp hq first => run (effectWithdraw_queue h0 hs hqueue hp hq first),
    fun l h0 hs hqueue hl only => ?_, fun h0 hs hqueue hl => run ?_⟩
  · rw [h0]
    exact effectWithdraw_refused
  · have lane {t : State} (he : (s.setPort p (s.risen p 2)).withdrawLane p l = t) :
        exec (.withdraw p [tag]) s = .next t.settle := run (by
      rw [effectWithdraw_beyondQueue h0 hs hqueue, State.laneOfTag_of_unique hl only]
      exact he)
    obtain ⟨-, owner, htag⟩ := hl
    refine ⟨fun hst => lane ?_, fun w hst hw hwl => lane ?_, fun hst => lane ?_,
      fun hst => lane (State.withdrawLane_running hst), fun hst => lane (State.withdrawLane_retiring hst)⟩
    · rw [State.withdrawLane_pending hst owner, htag]
      rfl
    · subst hwl
      rw [State.withdrawLane_survey hst, State.joinRetire_closeSurvey ((s.ends_survey p 2 .ok).trans hw),
        State.ends_lane, State.ends_retireList]
    · rw [State.withdrawLane_armed hst, State.joinRetire_eq, State.withArmingList_lane, State.withArmingList_retireList,
        State.ends_lane, State.ends_retireList]
      rfl
  · rw [effectWithdraw_beyondQueue h0 hs hqueue, State.laneOfTag_eq_none_iff.2 hl]
    rfl

end Sys2Proof.Machine
end

section
/-! The lanes' invariant in parts, each for one purpose (R94 to R97, R116, R119, R122, R128, R136, R144, R150, R157):
what a lane's record satisfies by its state, what list holds it, and what the scan asks. A lane that moves from one state to
another takes its place in the lists with it.
-/

namespace Sys2Proof.Machine

/-! ## What the invariant reads -/

/-- What `LanesSound` reads of the state: lanes, lists, engines, scan and supply. -/
structure Fleet where
  lanes : Vector Lane 15
  surveyList : List LaneId
  survey : Option Survey
  armingList : List LaneId
  retireList : List LaneId
  retire : Option RetireWalk
  scan : Scanner
  supply : Supply

def State.fleet (s : State) : Fleet :=
  ⟨s.lanes, s.surveyList, s.survey, s.armingList, s.retireList, s.retire, s.scan, s.supply⟩

theorem LinkOnly.fleet {s t : State} (h : LinkOnly s t) : t.fleet = s.fleet := by rw [h.body]; rfl

@[simp] theorem State.setPort_fleet (s : State) (p : Port) (v : PortState) : (s.setPort p v).fleet = s.fleet := by
  cases p <;> rfl

@[simp] theorem State.mapPort_fleet (s : State) (p : Port) (f : PortState → PortState) :
    (s.mapPort p f).fleet = s.fleet := s.setPort_fleet p _

@[simp] theorem State.setResult_fleet (s : State) (p : Port) (r : Result) : (s.setResult p r).fleet = s.fleet :=
  (LinkOnly.setResult s p r).fleet

@[simp] theorem State.raiseBoth_fleet (s : State) (f : Flag) : (s.raiseBoth f).fleet = s.fleet :=
  (LinkOnly.raiseBoth s f).fleet

@[simp] theorem State.appendDone_fleet (s : State) (p : Port) (d : DoneRecord) :
    (s.appendDone p d).fleet = s.fleet := by
  rw [State.appendDone_eq, State.setPort_fleet]

@[simp] theorem State.answer_fleet (s : State) (p : Port) (data : List Byte) (own : PortState → PortState) :
    (s.answer p data own).fleet = s.fleet := by
  simp [State.answer]

section Setters

variable (s : State)

@[simp] theorem State.withTable_fleet (v : TableUnit) : (s.withTable v).fleet = s.fleet := rfl

@[simp] theorem State.withTemp_fleet (v : TempUnit) : (s.withTemp v).fleet = s.fleet := rfl

@[simp] theorem State.withQueue_fleet (v : List Request) : (s.withQueue v).fleet = s.fleet := rfl

@[simp] theorem State.withZones_fleet (v : Vector (Option Zone) 4) : (s.withZones v).fleet = s.fleet := rfl

@[simp] theorem State.setZone_fleet (z : Fin 4) (v : Option Zone) : (s.setZone z v).fleet = s.fleet := rfl

@[simp] theorem State.withPower_fleet (v : PowerUnit) : (s.withPower v).fleet = s.fleet := rfl

@[simp] theorem State.withLimits_fleet (r w : Nat) : (s.withLimits r w).fleet = s.fleet := rfl

@[simp] theorem State.withZoneDuration_fleet (v : Nat) : (s.withZoneDuration v).fleet = s.fleet := rfl

@[simp] theorem State.abortLoad_fleet : s.abortLoad.fleet = s.fleet := rfl

@[simp] theorem State.mapContext_fleet (p : Port) (f : PortContext → PortContext) :
    (s.mapContext p f).fleet = s.fleet := s.mapPort_fleet p _

@[simp] theorem State.pushEntry_fleet (p : Port) (e : Entry) : (s.pushEntry p e).fleet = s.fleet := s.mapPort_fleet p _

end Setters

theorem LanesSound.congr {s t : State} (h : LanesSound s) (e : t.fleet = s.fleet) : LanesSound t := by
  have all := Fleet.mk.inj e
  obtain ⟨lanes, surveyList, survey, armingList, retireList, retire, scan, supply⟩ := all
  have lane (l : LaneId) : t.lane l = s.lane l := congrArg (fun v : Vector Lane 15 => v[l.val]) lanes
  refine ⟨?_, ?_, ?_, ?_, ?_, ?_, ?_, ?_, ?_, ?_, ?_, ?_, ?_, ?_, ?_, ?_, ?_, ?_⟩
  all_goals simp only [lane, surveyList, survey, armingList, retireList, retire, scan, supply]
  exacts [h.pending, h.surveyed, h.armed, h.retiring, h.once, h.walked, h.rest, h.scanning, h.scanBand, h.unstarted,
    h.armedCount, h.runningIndex, h.retiredIndex, h.retiredKind, h.idleMark, h.rails, h.demand, h.halted]

/-! ## One list -/

/-- The list holds exactly the lanes in a state, each once (R96, R116, R128). -/
structure State.Lists (s : State) (ls : List LaneId) (st : LaneState) : Prop where
  once : ls.Nodup
  mem : ∀ l, l ∈ ls ↔ (s.lane l).state = st

namespace State.Lists

variable {s t : State} {ls : List LaneId} {st : LaneState}

theorem congr (h : s.Lists ls st) (e : ∀ l, (t.lane l).state = st ↔ (s.lane l).state = st) : t.Lists ls st :=
  ⟨h.once, fun l => (h.mem l).trans (e l).symm⟩

/-- Lanes that enter the state join the list at its tail. -/
theorem append (h : s.Lists ls st) {new : List LaneId} (once : new.Nodup) (out : ∀ l ∈ new, (s.lane l).state ≠ st)
    (e : ∀ l, (t.lane l).state = st ↔ (s.lane l).state = st ∨ l ∈ new) : t.Lists (ls ++ new) st := by
  refine ⟨List.nodup_append'.2 ⟨h.once, once, fun l hl hn => out l hn ((h.mem l).1 hl)⟩, fun l => ?_⟩
  rw [List.mem_append, h.mem, e]

/-- Lanes that leave the state leave the list. -/
theorem filter (h : s.Lists ls st) (p : LaneId → Bool)
    (e : ∀ l, (t.lane l).state = st ↔ (s.lane l).state = st ∧ p l = true) : t.Lists (ls.filter p) st := by
  refine ⟨h.once.filter p, fun l => ?_⟩
  rw [List.mem_filter, h.mem, e]

theorem nil_iff (s : State) (st : LaneState) : s.Lists [] st ↔ ∀ l, (s.lane l).state ≠ st :=
  ⟨fun h l hl => by simpa using (h.mem l).2 hl, fun h => ⟨List.nodup_nil, fun l => by simpa using h l⟩⟩

/-- The head of a list is off it once it has left the state. -/
theorem filter_head {l : LaneId} {rest : List LaneId} (h : s.Lists (l :: rest) st) :
    (l :: rest).filter (fun k => decide (k ≠ l)) = rest := by
  obtain ⟨hn, -⟩ := List.nodup_cons.1 h.once
  rw [List.filter_cons_of_neg (by simp), List.filter_eq_self]
  intro k hk
  simp only [decide_eq_true_eq]
  rintro rfl
  exact hn hk

end State.Lists

/-- A list of the lanes in a state, after a lane has moved from one state to another. -/
def moved (ls : List LaneId) (l : LaneId) (old new st : LaneState) : List LaneId :=
  if old = new then ls
  else if new = st then ls ++ [l]
  else if old = st then ls.filter fun k => decide (k ≠ l)
  else ls

theorem State.Lists.moved {s t : State} {ls : List LaneId} {st : LaneState} (h : s.Lists ls st) (l : LaneId) (M : Lane)
    (lane : ∀ k, t.lane k = if k = l then M else s.lane k) : t.Lists (moved ls l (s.lane l).state M.state st) st := by
  have other {k : LaneId} (hk : k ≠ l) : t.lane k = s.lane k := by rw [lane, if_neg hk]
  have self : t.lane l = M := by rw [lane, if_pos rfl]
  unfold Machine.moved
  split
  · rename_i same
    refine h.congr fun k => ?_
    by_cases hk : k = l
    · rw [hk, self, same]
    · rw [other hk]
  · rename_i differ
    split
    · rename_i new
      refine h.append (List.nodup_singleton l) (fun k hk => ?_) fun k => ?_
      · rw [List.mem_singleton.1 hk]
        exact fun hold => differ (hold.trans new.symm)
      · by_cases hk : k = l
        · rw [hk, self]; simp [new]
        · rw [other hk]; simp [hk]
    · rename_i new
      split
      · refine h.filter _ fun k => ?_
        by_cases hk : k = l
        · rw [hk, self]; simp [new]
        · rw [other hk]; simp [hk]
      · rename_i old
        refine h.congr fun k => ?_
        by_cases hk : k = l
        · rw [hk, self]; simp [new, old]
        · rw [other hk]

/-! ## Lanes, their lists and the scan -/

/-- What a lane's record satisfies by its state, the scan and the supply (R95, R108, R119, R122, R128, R150, R157). -/
def Lane.Fits (c : Scanner) (u : Supply) (L : Lane) : Prop :=
  match L.state with
  | .free => L = Lane.rest
  | .pending | .survey => L.frameIndex = 0 ∧ u.state ≠ .halted
  | .armed => L.frameIndex = 0 ∧ 0 < L.frameCount ∧ u.state ≠ .off ∧ u.state ≠ .halted
  | .running => L.frameIndex < L.frameCount ∧ L.band = c.band ∧ c.scanning = true
  | .retiring => L.frameIndex ≤ L.frameCount ∧ L.kind.isSome = true ∧ L.outcome.isSome = true

section Fits

variable {c : Scanner} {u : Supply} {L : Lane}

theorem Lane.fits_free (h : L.state = .free) : L.Fits c u ↔ L = Lane.rest := by rw [Lane.Fits, h]

theorem Lane.fits_pending (h : L.state = .pending) : L.Fits c u ↔ L.frameIndex = 0 ∧ u.state ≠ .halted := by
  rw [Lane.Fits, h]

theorem Lane.fits_survey (h : L.state = .survey) : L.Fits c u ↔ L.frameIndex = 0 ∧ u.state ≠ .halted := by
  rw [Lane.Fits, h]

theorem Lane.fits_armed (h : L.state = .armed) : L.Fits c u ↔
    L.frameIndex = 0 ∧ 0 < L.frameCount ∧ u.state ≠ .off ∧ u.state ≠ .halted := by
  rw [Lane.Fits, h]

theorem Lane.fits_running (h : L.state = .running) : L.Fits c u ↔
    L.frameIndex < L.frameCount ∧ L.band = c.band ∧ c.scanning = true := by
  rw [Lane.Fits, h]

theorem Lane.fits_retiring (h : L.state = .retiring) : L.Fits c u ↔
    L.frameIndex ≤ L.frameCount ∧ L.kind.isSome = true ∧ L.outcome.isSome = true := by
  rw [Lane.Fits, h]

theorem Lane.Fits.supply {v : Supply} (h : L.Fits c u) (state : v.state = u.state) :
    L.Fits c v := by
  unfold Lane.Fits at h ⊢
  rw [state]
  exact h

theorem Lane.Fits.scan {d : Scanner} (h : L.Fits c u) (on : d.scanning = c.scanning)
    (band : d.band = c.band) : L.Fits d u := by
  unfold Lane.Fits at h ⊢
  rw [on, band]
  exact h

/-- The record of a lane in use changes in fields that place and progress do not show in. -/
theorem Lane.Fits.alike {M : Lane} (h : L.Fits c u) (inUse : L.state ≠ .free)
    (state : M.state = L.state) (frameIndex : M.frameIndex = L.frameIndex) (frameCount : M.frameCount = L.frameCount)
    (band : M.band = L.band) (kind : M.kind = L.kind) (outcome : M.outcome = L.outcome) : M.Fits c u := by
  unfold Lane.Fits at h ⊢
  rw [state, frameIndex, frameCount, band, kind, outcome]
  cases hst : L.state with
  | free => exact absurd hst inUse
  | _ => rw [hst] at h; exact h

end Fits

/-- Lanes, lists and engines agree, but that the Retire Engine may have a walk to start (R96, R97, R116, R128). -/
structure LanesHeld (s : State) : Prop where
  lane : ∀ l, (s.lane l).Fits s.scan s.supply
  pending : s.Lists s.surveyList .pending
  surveyed : s.Lists (s.survey.map Survey.lane).toList .survey
  armed : s.Lists s.armingList .armed
  retiring : s.Lists s.retireList .retiring
  walking : ∀ w, s.retire = some w → s.retireList.head? = some w.lane

/-- What a scan that runs asks of lanes and supply, and an IDLE one of the frame-mark row (R136, R144, R151). -/
structure ScanHeld (s : State) : Prop where
  driving : s.scan.scanning = true → ∃ l, (s.lane l).state = .running
  idleMark : s.scan.scanning = false → s.scan.pendingMark = none
  rails : s.scan.scanning = true → s.supply.state = .on ∧ s.supply.parkTimer = none

theorem LanesSound.fits {s : State} (h : LanesSound s) (l : LaneId) : (s.lane l).Fits s.scan s.supply := by
  have started := h.unstarted l
  have notHalted {st : LaneState} (hst : (s.lane l).state = st) (h1 : st ≠ .free) (h2 : st ≠ .retiring) :
      s.supply.state ≠ .halted := fun hh => by
    rcases h.halted hh l with hl | hl <;> rw [hst] at hl
    · exact h1 hl
    · exact h2 hl
  cases hst : (s.lane l).state with
  | free => exact (Lane.fits_free hst).2 (h.rest l hst)
  | pending =>
    exact (Lane.fits_pending hst).2 ⟨started (by simp [hst]) (by simp [hst]), notHalted hst (by decide) (by decide)⟩
  | survey =>
    exact (Lane.fits_survey hst).2 ⟨started (by simp [hst]) (by simp [hst]), notHalted hst (by decide) (by decide)⟩
  | armed => exact (Lane.fits_armed hst).2 ⟨started (by simp [hst]) (by simp [hst]), h.armedCount l hst,
      h.demand (List.ne_nil_of_mem ((h.armed l).2 hst)), notHalted hst (by decide) (by decide)⟩
  | running => exact (Lane.fits_running hst).2 ⟨h.runningIndex l hst, h.scanBand l hst, h.scanning.2 ⟨l, hst⟩⟩
  | retiring => exact (Lane.fits_retiring hst).2 ⟨h.retiredIndex l hst, h.retiredKind l hst⟩

theorem LanesSound.held {s : State} (h : LanesSound s) : LanesHeld s where
  lane := h.fits
  pending := ⟨h.once.1, h.pending⟩
  surveyed := ⟨by cases s.survey <;> simp, fun l => by rw [Option.mem_toList]; exact h.surveyed l⟩
  armed := ⟨h.once.2.1, h.armed⟩
  retiring := ⟨h.once.2.2, h.retiring⟩
  walking w hw := by rw [← h.walked, hw]; rfl

theorem LanesSound.scan {s : State} (h : LanesSound s) : ScanHeld s := ⟨h.scanning.1, h.idleMark, h.rails⟩

namespace LanesHeld

variable {s : State}

theorem surveying (h : LanesHeld s) (l : LaneId) : s.survey.map Survey.lane = some l ↔ (s.lane l).state = .survey := by
  rw [← h.surveyed.mem, Option.mem_toList]

theorem free (h : LanesHeld s) {l : LaneId} (hl : (s.lane l).state = .free) : s.lane l = Lane.rest :=
  (Lane.fits_free hl).1 (h.lane l)

theorem running (h : LanesHeld s) {l : LaneId} (hl : (s.lane l).state = .running) :
    (s.lane l).frameIndex < (s.lane l).frameCount ∧ (s.lane l).band = s.scan.band ∧ s.scan.scanning = true :=
  (Lane.fits_running hl).1 (h.lane l)

theorem armedLane (h : LanesHeld s) {l : LaneId} (hl : (s.lane l).state = .armed) :
    (s.lane l).frameIndex = 0 ∧ 0 < (s.lane l).frameCount ∧ s.supply.state ≠ .off ∧ s.supply.state ≠ .halted :=
  (Lane.fits_armed hl).1 (h.lane l)

theorem retired (h : LanesHeld s) {l : LaneId} (hl : (s.lane l).state = .retiring) :
    (s.lane l).frameIndex ≤ (s.lane l).frameCount ∧ (s.lane l).kind.isSome = true ∧ (s.lane l).outcome.isSome = true :=
  (Lane.fits_retiring hl).1 (h.lane l)

/-- A lane that is neither RUNNING nor RETIRING has driven no frame (R119). -/
theorem unstarted (h : LanesHeld s) {l : LaneId} (h1 : (s.lane l).state ≠ .running)
    (h2 : (s.lane l).state ≠ .retiring) : (s.lane l).frameIndex = 0 := by
  have hf := h.lane l
  cases hst : (s.lane l).state with
  | free => rw [h.free hst]; rfl
  | pending => exact ((Lane.fits_pending hst).1 hf).1
  | survey => exact ((Lane.fits_survey hst).1 hf).1
  | armed => exact (h.armedLane hst).1
  | running => exact absurd hst h1
  | retiring => exact absurd hst h2

/-- A lane before its drive finds the supply not HALTED (R157). -/
theorem ne_halted (h : LanesHeld s) {l : LaneId}
    (hl : (s.lane l).state = .pending ∨ (s.lane l).state = .survey ∨ (s.lane l).state = .armed) :
    s.supply.state ≠ .halted := by
  rcases hl with hl | hl | hl
  · exact ((Lane.fits_pending hl).1 (h.lane l)).2
  · exact ((Lane.fits_survey hl).1 (h.lane l)).2
  · exact (h.armedLane hl).2.2.2

/-- The lanes are sound where both parts hold and no lane waits for an idle Retire Engine. -/
theorem sound (h : LanesHeld s) (c : ScanHeld s) (idle : s.retire = none → s.retireList = []) : LanesSound s where
  pending := h.pending.mem
  surveyed := h.surveying
  armed := h.armed.mem
  retiring := h.retiring.mem
  once := ⟨h.pending.once, h.armed.once, h.retiring.once⟩
  walked := by
    cases hr : s.retire with
    | none => rw [idle hr]; rfl
    | some w => exact (h.walking w hr).symm
  rest _ hl := h.free hl
  scanning := ⟨c.driving, fun ⟨_, hl⟩ => (h.running hl).2.2⟩
  scanBand _ hl := (h.running hl).2.1
  unstarted _ h1 h2 := h.unstarted h1 h2
  armedCount _ hl := (h.armedLane hl).2.1
  runningIndex _ hl := (h.running hl).1
  retiredIndex _ hl := (h.retired hl).1
  retiredKind _ hl := (h.retired hl).2
  idleMark := c.idleMark
  rails := c.rails
  demand hne := by
    obtain ⟨l, hl⟩ := List.exists_mem_of_ne_nil _ hne
    exact (h.armedLane ((h.armed.mem l).1 hl)).2.2.1
  halted hh l := by
    cases hst : (s.lane l).state with
    | free => exact .inl rfl
    | pending => exact absurd hh (h.ne_halted (.inl hst))
    | survey => exact absurd hh (h.ne_halted (.inr (.inl hst)))
    | armed => exact absurd hh (h.ne_halted (.inr (.inr hst)))
    | running =>
      have hon := (c.rails (h.running hst).2.2).1
      rw [hh] at hon
      cases hon
    | retiring => exact .inr rfl

/-- Every lane stays in its state and every list stands, and the records fit as they now are. -/
theorem relane (h : LanesHeld s) {t : State} (state : ∀ l, (t.lane l).state = (s.lane l).state)
    (surveyList : t.surveyList = s.surveyList) (survey : t.survey.map Survey.lane = s.survey.map Survey.lane)
    (armingList : t.armingList = s.armingList) (retireList : t.retireList = s.retireList)
    (walking : ∀ w, t.retire = some w → s.retireList.head? = some w.lane)
    (fits : ∀ l, (t.lane l).Fits t.scan t.supply) : LanesHeld t := by
  have lists {ls : List LaneId} {st : LaneState} (hl : s.Lists ls st) : t.Lists ls st :=
    hl.congr fun l => by rw [state]
  exact ⟨fits, surveyList ▸ lists h.pending, survey ▸ lists h.surveyed, armingList ▸ lists h.armed,
    retireList ▸ lists h.retiring, retireList ▸ walking⟩

/-- The lanes and their lists stand, and the records fit the scan and the supply as these now are. -/
theorem refit (h : LanesHeld s) {t : State} (lanes : t.lanes = s.lanes) (surveyList : t.surveyList = s.surveyList)
    (survey : t.survey = s.survey) (armingList : t.armingList = s.armingList) (retireList : t.retireList = s.retireList)
    (walking : ∀ w, t.retire = some w → s.retireList.head? = some w.lane)
    (fits : ∀ l, (s.lane l).Fits t.scan t.supply) : LanesHeld t := by
  have lane (l : LaneId) : t.lane l = s.lane l := congrArg (fun v : Vector Lane 15 => v[l.val]) lanes
  exact h.relane (fun l => by rw [lane]) surveyList (by rw [survey]) armingList retireList walking
    fun l => by rw [lane]; exact fits l

theorem congr {t : State} (h : LanesHeld s) (e : t.fleet = s.fleet) : LanesHeld t := by
  obtain ⟨lanes, surveyList, survey, armingList, retireList, retire, scan, supply⟩ := Fleet.mk.inj e
  exact h.refit lanes surveyList survey armingList retireList (fun w hw => h.walking w (retire ▸ hw))
    fun l => by rw [scan, supply]; exact h.lane l

/-- The supply's state stands. -/
theorem sameSupply (h : LanesHeld s) {u : Supply} (state : u.state = s.supply.state) :
    LanesHeld (s.withSupply u) :=
  h.refit rfl rfl rfl rfl rfl h.walking fun l => (h.lane l).supply state

/-- The scan goes on, or stays IDLE, with its band. -/
theorem sameScan (h : LanesHeld s) {c : Scanner} (on : c.scanning = s.scan.scanning)
    (band : c.band = s.scan.band) : LanesHeld (s.withScan c) :=
  h.refit rfl rfl rfl rfl rfl h.walking fun l => (h.lane l).scan on band

/-- An idle Retire Engine starts the walk of the lane at the head of its list (R128). -/
theorem startRetire (h : LanesHeld s) (c : ScanHeld s) : LanesSound s.startRetire := by
  obtain ⟨r, hr, busy, idle⟩ := s.startRetire_eq
  rw [hr]
  have walked : r.map RetireWalk.lane = s.retireList.head? := by
    cases hs : s.retire with
    | none => exact idle hs
    | some v => rw [busy v hs]; exact (h.walking v hs).symm
  refine sound (h.refit rfl rfl rfl rfl rfl (fun w hw => ?_) h.lane) ⟨c.driving, c.idleMark, c.rails⟩ fun hn => ?_
  · rw [State.withRetire_retire] at hw
    rw [← walked, hw]
    rfl
  · rw [State.withRetire_retire] at hn
    rw [hn] at walked
    exact List.head?_eq_none_iff.1 walked.symm

end LanesHeld

theorem ScanHeld.congr {s t : State} (h : ScanHeld s) (e : t.fleet = s.fleet) : ScanHeld t := by
  obtain ⟨lanes, -, -, -, -, -, scan, supply⟩ := Fleet.mk.inj e
  have lane (l : LaneId) : t.lane l = s.lane l := congrArg (fun v : Vector Lane 15 => v[l.val]) lanes
  exact ⟨by simpa only [lane, scan] using h.driving, by rw [scan]; exact h.idleMark,
    by rw [scan, supply]; exact h.rails⟩

theorem ScanHeld.ofIdle {s : State} (idle : s.scan.scanning = false) (mark : s.scan.pendingMark = none) : ScanHeld s :=
  ⟨fun hs => absurd (idle.symm.trans hs) (by decide), fun _ => mark, fun hs => absurd (idle.symm.trans hs) (by decide)⟩

end Sys2Proof.Machine
end

section
/-! A lane at a time (R95 to R97, R107 to R112, R121, R123, R124): each move of a lane from one state to another keeps
lanes, lists and engines in agreement.
-/

namespace Sys2Proof.Machine

/-! ## A lane that moves -/

/-- A lane takes a new record in place of one in state `a`, with its state `b`, and its place in the lists with it; the
Retire Engine goes on with its walk, or has ended it. -/
structure LaneMove (s t : State) (l : LaneId) (M : Lane) (a b : LaneState) : Prop where
  old : (s.lane l).state = a
  new : M.state = b
  lane : ∀ k, t.lane k = if k = l then M else s.lane k
  surveyList : t.surveyList = moved s.surveyList l a b .pending
  survey : (t.survey.map Survey.lane).toList = moved (s.survey.map Survey.lane).toList l a b .survey
  armingList : t.armingList = moved s.armingList l a b .armed
  retireList : t.retireList = moved s.retireList l a b .retiring
  retire : t.retire = none ∨ t.retire = s.retire ∧ (a = .retiring → b = .retiring)
  scan : t.scan = s.scan
  supply : t.supply = s.supply

section Moves

variable {s t : State} {l : LaneId} {M : Lane} {a b : LaneState}

/-- A list at whose tail a lane may join keeps its head. -/
theorem head?_moved {ls : List LaneId} {st : LaneState} {k : LaneId} (ha : ls.head? = some k)
    (stays : a = st → b = st) : (moved ls l a b st).head? = some k := by
  unfold moved
  split
  · exact ha
  · split
    · rw [List.head?_append, ha]; rfl
    · rename_i new
      rw [if_neg fun hold => new (stays hold)]
      exact ha

theorem LaneMove.lists (m : LaneMove s t l M a b) {ls : List LaneId} {st : LaneState} (h : s.Lists ls st) :
    t.Lists (moved ls l a b st) st := by
  have hm := h.moved l M m.lane
  rwa [m.old, m.new] at hm

theorem LanesHeld.move (h : LanesHeld s) (m : LaneMove s t l M a b) (fits : M.Fits s.scan s.supply) : LanesHeld t where
  lane k := by
    rw [m.scan, m.supply, m.lane]
    split
    · exact fits
    · exact h.lane k
  pending := m.surveyList ▸ m.lists h.pending
  surveyed := m.survey ▸ m.lists h.surveyed
  armed := m.armingList ▸ m.lists h.armed
  retiring := m.retireList ▸ m.lists h.retiring
  walking w hw := by
    rcases m.retire with hn | ⟨hs, stays⟩
    · rw [hn] at hw; cases hw
    · rw [m.retireList]
      exact head?_moved (h.walking w (hs ▸ hw)) stays

theorem ScanHeld.move (h : ScanHeld s) (m : LaneMove s t l M a b) (running : a = .running → b = .running) :
    ScanHeld t := by
  refine ⟨fun hs => ?_, m.scan ▸ h.idleMark, m.scan ▸ m.supply ▸ h.rails⟩
  rw [m.scan] at hs
  obtain ⟨k, hk⟩ := h.driving hs
  refine ⟨k, ?_⟩
  rw [m.lane]
  split
  · rename_i he
    rw [he] at hk
    exact m.new.trans (running (m.old.symm.trans hk))
  · exact hk

/-- An idle Retire Engine has no lane on its list (R128). -/
theorem LanesSound.idle (h : LanesSound s) (hn : s.retire = none) : s.retireList = [] := by
  have hw := h.walked
  rw [hn] at hw
  exact List.head?_eq_none_iff.1 hw.symm

/-- A lane that joins no retire list and leaves none keeps the lanes sound. -/
theorem LanesSound.move (h : LanesSound s) (m : LaneMove s t l M a b) (fits : M.Fits s.scan s.supply)
    (running : a = .running → b = .running) (retiring : a = .retiring ↔ b = .retiring) (retire : t.retire = s.retire) :
    LanesSound t := by
  refine (h.held.move m fits).sound (h.scan.move m running) fun hn => ?_
  rw [m.retireList, h.idle (retire ▸ hn)]
  unfold moved
  split
  · rfl
  · rename_i differ
    rw [if_neg fun hb => differ ((retiring.2 hb).trans hb.symm),
      if_neg fun ha => differ (ha.trans (retiring.1 ha).symm)]

/-- A lane that stays in its state keeps its place. -/
theorem LaneMove.stays (s : State) {l : LaneId} {M : Lane} (same : M.state = (s.lane l).state) :
    LaneMove s (s.setLane l M) l M (s.lane l).state (s.lane l).state := by
  have list (ls : List LaneId) (st : LaneState) : ls = moved ls l (s.lane l).state (s.lane l).state st := by
    rw [moved, if_pos rfl]
  exact ⟨rfl, same, fun k => s.setLane_lane l k M, list _ _, list _ _, list _ _, list _ _, .inr ⟨rfl, id⟩, rfl, rfl⟩

/-- A change of a lane that keeps its state. -/
theorem LanesSound.setLane (h : LanesSound s) (same : M.state = (s.lane l).state)
    (fits : M.Fits s.scan s.supply) : LanesSound (s.setLane l M) :=
  h.move (.stays s same) fits id Iff.rfl rfl

end Moves

/-! ## The moves of the Scheduler -/

section Operations

variable {s : State} {l : LaneId}

/-- A FREE lane is allocated to a request (R95, R96). -/
theorem State.allocate_move (i : Nat) (q : Request) (free : (s.lane l).state = .free) :
    LaneMove s (s.allocate i q l) l (Lane.allocated q) .free .pending :=
  ⟨free, rfl, s.allocate_lane i q l, rfl, rfl, rfl, rfl, .inr ⟨rfl, by decide⟩, rfl, rfl⟩

/-- A reconsideration allocates FREE lanes, and none while the supply is HALTED (R77, R78). -/
theorem LanesHeld.reconsider (h : LanesHeld s) (c : ScanHeld s) : LanesHeld s.reconsider ∧ ScanHeld s.reconsider :=
  State.reconsider_keeps (fun t => LanesHeld t ∧ ScanHeld t) (fun t i q l ⟨ht, hc⟩ choose _ free => by
    obtain ⟨r, -, he⟩ := (t.eligibleAt_iff i).1 (t.choose_eligible choose)
    obtain ⟨-, halted, -⟩ := (t.eligible_iff _ r).1 he
    have m := State.allocate_move i q (t.freeLane_spec free)
    exact ⟨ht.move m ((Lane.fits_pending m.new).2 ⟨rfl, halted⟩), hc.move m (by decide)⟩) s ⟨h, c⟩

theorem LanesSound.reconsider (h : LanesSound s) : LanesSound s.reconsider := by
  obtain ⟨hh, hc⟩ := h.held.reconsider h.scan
  exact hh.sound hc (by simpa using h.idle)

/-- While the supply is HALTED a reconsideration does nothing (R78). -/
theorem State.reconsider_halted (h : s.supply.state = .halted) : s.reconsider = s :=
  State.reconsider_of_none (s.choose_eq_none_iff.2 fun i => (s.eligibleAt_eq_false_iff i).2 fun q _ => by
    rw [← Bool.not_eq_true, s.eligible_iff]
    exact fun he => he.2.1 h)

theorem State.endPending_fleet (o : UpdateOutcome) (s : State) (l : LaneId) : (State.endPending o s l).fleet =
    ((s.setLane l Lane.rest).withSurveyList (s.surveyList.filter fun k => decide (k ≠ l))).fleet := by
  rw [State.endPending_eq]
  split
  · rw [State.appendDone_eq]; cases (s.lane l).owner <;> rfl
  · rfl

/-- A PENDING lane ends (R110). -/
theorem LanesSound.endPending (h : LanesSound s) (o : UpdateOutcome) (hl : (s.lane l).state = .pending) :
    LanesSound (State.endPending o s l) := by
  have m : LaneMove s ((s.setLane l Lane.rest).withSurveyList (s.surveyList.filter fun k => decide (k ≠ l))) l Lane.rest
      .pending .free :=
    ⟨hl, rfl, fun k => s.setLane_lane l k _, rfl, rfl, rfl, rfl, .inr ⟨rfl, by decide⟩, rfl, rfl⟩
  exact (h.move m ((Lane.fits_free m.new).2 rfl) (by decide) (by decide) rfl).congr (State.endPending_fleet o s l)

/-! ## The moves of the Survey Engine -/

/-- The head of the survey list enters SURVEY (R97). -/
theorem LanesSound.startSurvey (h : LanesSound s) {rest : List LaneId} {w : Survey} (hn : s.survey = none)
    (hl : s.surveyList = w.lane :: rest) {M : Lane} (new : M.state = .survey)
    (index : M.frameIndex = (s.lane w.lane).frameIndex) :
    LanesSound (((s.setLane w.lane M).withSurveyList rest).withSurvey (some w)) := by
  have old : (s.lane w.lane).state = .pending := (h.pending w.lane).1 (by rw [hl]; exact List.mem_cons_self)
  obtain ⟨unstarted, halted⟩ := (Lane.fits_pending old).1 (h.fits w.lane)
  have head := (hl ▸ h.held.pending : s.Lists (w.lane :: rest) .pending).filter_head
  have m : LaneMove s (((s.setLane w.lane M).withSurveyList rest).withSurvey (some w)) w.lane M .pending .survey :=
    ⟨old, new, fun k => s.setLane_lane w.lane k M, by rw [hl]; exact head.symm, by rw [hn]; rfl, rfl, rfl,
      .inr ⟨rfl, by decide⟩, rfl, rfl⟩
  exact h.move m ((Lane.fits_survey new).2 ⟨index.trans unstarted, halted⟩) (by decide) (by decide) rfl

theorem LanesSound.surveyed_lane (h : LanesSound s) {w : Survey} (hw : s.survey = some w) :
    (s.lane w.lane).state = .survey := (h.surveyed w.lane).1 (by rw [hw]; rfl)

/-- No lane is being surveyed once the survey of the lane that was has ended. -/
theorem moved_survey {w : Survey} (hw : s.survey = some w) {b : LaneState} (hb : b ≠ .survey) :
    [] = moved (s.survey.map Survey.lane).toList w.lane .survey b .survey := by
  simp [moved, hw, hb, hb.symm]

/-- The lane being surveyed ends (R109). -/
theorem LanesSound.endSurveyed (h : LanesSound s) {w : Survey} (hw : s.survey = some w) :
    LanesSound ((s.withSurvey none).setLane w.lane Lane.rest) := by
  have m : LaneMove s ((s.withSurvey none).setLane w.lane Lane.rest) w.lane Lane.rest .survey .free :=
    ⟨h.surveyed_lane hw, rfl, fun k => (s.withSurvey none).setLane_lane w.lane k _, rfl, moved_survey hw (by decide),
      rfl, rfl, .inr ⟨rfl, by decide⟩, rfl, rfl⟩
  exact h.move m ((Lane.fits_free m.new).2 rfl) (by decide) (by decide) rfl

/-- The lane being surveyed is ARMED, with the supply not OFF (R116, R150). -/
theorem LanesSound.armSurveyed (h : LanesSound s) {w : Survey} (hw : s.survey = some w) {M : Lane}
    (new : M.state = .armed) (index : M.frameIndex = 0) (frames : 0 < M.frameCount) (off : s.supply.state ≠ .off) :
    LanesSound (((s.withSurvey none).setLane w.lane M).withArmingList (s.armingList ++ [w.lane])) := by
  have old := h.surveyed_lane hw
  have m : LaneMove s (((s.withSurvey none).setLane w.lane M).withArmingList (s.armingList ++ [w.lane])) w.lane M
      .survey .armed :=
    ⟨old, new, fun k => (s.withSurvey none).setLane_lane w.lane k _, rfl, moved_survey hw (by decide), rfl, rfl,
      .inr ⟨rfl, by decide⟩, rfl, rfl⟩
  exact h.move m ((Lane.fits_armed new).2 ⟨index, frames, off, h.held.ne_halted (.inr (.inl old))⟩) (by decide)
    (by decide) rfl

/-- The lane being surveyed joins the retire list (R107, R111). -/
theorem LanesSound.retireSurveyed (h : LanesSound s) {w : Survey} (hw : s.survey = some w) {M : Lane}
    (new : M.state = .retiring) (fits : M.Fits s.scan s.supply) :
    LanesSound ((((s.withSurvey none).setLane w.lane M).withRetireList (s.retireList ++ [w.lane])).startRetire) := by
  have m : LaneMove s (((s.withSurvey none).setLane w.lane M).withRetireList (s.retireList ++ [w.lane])) w.lane M
      .survey .retiring :=
    ⟨h.surveyed_lane hw, new, fun k => (s.withSurvey none).setLane_lane w.lane k _, rfl, moved_survey hw (by decide),
      rfl, rfl, .inr ⟨rfl, by decide⟩, rfl, rfl⟩
  exact (h.held.move m fits).startRetire (h.scan.move m (by decide))

/-! ## The moves to and from the retire list -/

/-- An ARMED lane is released (R124). -/
theorem LanesSound.releaseArmed (h : LanesSound s) (old : (s.lane l).state = .armed) (o : UpdateOutcome) :
    LanesSound (State.joinRetire .release o (s.withArmingList (s.armingList.filter fun k => decide (k ≠ l)))
      l).startRetire := by
  have m : LaneMove s (State.joinRetire .release o (s.withArmingList (s.armingList.filter fun k => decide (k ≠ l))) l) l
      ((s.lane l).leaving .release o) .armed .retiring :=
    ⟨old, rfl, fun k => (s.withArmingList _).setLane_lane l k _, rfl, rfl, rfl, rfl, .inr ⟨rfl, by decide⟩, rfl, rfl⟩
  have index : ((s.lane l).leaving .release o).frameIndex = 0 := (h.held.armedLane old).1
  exact (h.held.move m ((Lane.fits_retiring m.new).2 ⟨by omega, rfl, rfl⟩)).startRetire (h.scan.move m (by decide))

/-- A RUNNING lane joins the retire list (R121, R123). -/
theorem LanesHeld.retireRunning (h : LanesHeld s) (old : (s.lane l).state = .running) {M : Lane}
    (new : M.state = .retiring) (fits : M.Fits s.scan s.supply) :
    LanesHeld ((s.setLane l M).withRetireList (s.retireList ++ [l])) :=
  h.move (M := M) (a := .running) (b := .retiring) ⟨old, new, fun k => s.setLane_lane l k _, rfl, rfl, rfl, rfl,
    .inr ⟨rfl, by decide⟩, rfl, rfl⟩ fits

/-- The lane of a retire walk that is complete ends, and the next walk starts (R133). -/
theorem LanesSound.endRetired (h : LanesSound s) {w : RetireWalk} (hw : s.retire = some w) :
    LanesSound (((((s.setLane w.lane Lane.rest).withRetireList (s.retireList.filter fun k => decide (k ≠ w.lane))
      ).withRetire none).reconsider).startRetire) := by
  have m : LaneMove s (((s.setLane w.lane Lane.rest).withRetireList (s.retireList.filter fun k => decide (k ≠ w.lane))
      ).withRetire none) w.lane Lane.rest .retiring .free :=
    ⟨h.engines.retiring w hw, rfl, fun k => s.setLane_lane w.lane k _, rfl, rfl, rfl, rfl, .inl rfl, rfl, rfl⟩
  obtain ⟨hh, hc⟩ := (h.held.move m ((Lane.fits_free m.new).2 rfl)).reconsider (h.scan.move m (by decide))
  exact hh.startRetire hc

end Operations

end Sys2Proof.Machine
end

section
/-! A trip and a halt (R113, R123, R128, R142, R153, R156): what each makes of every lane, list and engine, and O53.
-/

namespace Sys2Proof.Machine

/-! ## The records of lanes that end -/

/-- A lane's record goes to its owner if the lane reports (R110, R113). -/
def State.reportAs (lane : LaneId → Lane) (o : UpdateOutcome) (s : State) (l : LaneId) : State :=
  if (lane l).report then
    s.appendDone (lane l).owner (DoneRecord.unsurveyed (lane l).tag (lane l).requestedMode o)
  else s

/-- What one port comes to hold by records depends on the ports alone. -/
theorem State.appendDone_port {s u : State} (ports : ∀ p, s.port p = u.port p) (k : Port) (d : DoneRecord) (p : Port) :
    (s.appendDone k d).port p = (u.appendDone k d).port p := by
  simp only [State.appendDone_eq, State.setPort_port, ports]

/-- Records touch nothing but the two ports. -/
theorem State.foldl_reportAs (lane : LaneId → Lane) (o : UpdateOutcome) (ls : List LaneId) (s : State) :
    ls.foldl (State.reportAs lane o) s =
      (s.setPort .a (ls.foldl (State.reportAs lane o) s).portA).setPort .b
        (ls.foldl (State.reportAs lane o) s).portB := by
  refine foldl_keeps (fun u => u = (s.setPort .a u.portA).setPort .b u.portB) _ (fun u l hu => ?_) ls s rfl
  unfold State.reportAs
  split
  · rw [State.appendDone_eq]
    generalize (lane l).owner = k
    cases k <;> rw [hu] <;> rfl
  · exact hu

/-- PENDING lanes that end give their records in the order in which they end (R113). -/
theorem State.foldl_endPending_port {lane : LaneId → Lane} (o : UpdateOutcome) {ls : List LaneId} (once : ls.Nodup) :
    ∀ {s u : State}, (∀ p, s.port p = u.port p) → (∀ l ∈ ls, s.lane l = lane l) →
      ∀ p, (ls.foldl (State.endPending o) s).port p = (ls.foldl (State.reportAs lane o) u).port p := by
  induction ls with
  | nil => exact fun ports _ => ports
  | cons k ls ih =>
    intro s u ports lanes
    obtain ⟨hk, once⟩ := List.nodup_cons.1 once
    rw [List.foldl_cons, List.foldl_cons]
    refine ih once (fun p => ?_) fun l hl => ?_
    · rw [State.endPending_eq, State.reportAs, lanes k List.mem_cons_self, State.withSurveyList_port,
        State.setLane_port]
      split
      · exact State.appendDone_port ports _ _ p
      · exact ports p
    · have other : l ≠ k := fun he => hk (he ▸ hl)
      rw [← lanes l (List.mem_cons_of_mem _ hl), State.endPending_eq, State.withSurveyList_lane, State.setLane_lane,
        if_neg other]
      split
      · rw [State.appendDone_eq, State.setPort_lane]
      · rfl

/-- PENDING lanes end together: each is at rest and off the survey list, and has given its record (R113). -/
theorem State.foldl_endPending_reports {s u : State} {lane : LaneId → Lane} (o : UpdateOutcome) {ls : List LaneId}
    (once : ls.Nodup) (ports : ∀ p, s.port p = u.port p) (lanes : ∀ l ∈ ls, s.lane l = lane l) :
    ∃ v : Vector Lane 15, ls.foldl (State.endPending o) s =
        ((((s.withLanes v).withSurveyList (s.surveyList.filter fun k => decide (k ∉ ls))).setPort .a
          (ls.foldl (State.reportAs lane o) u).portA).setPort .b (ls.foldl (State.reportAs lane o) u).portB) ∧
      ∀ l, (s.withLanes v).lane l = if l ∈ ls then Lane.rest else s.lane l := by
  obtain ⟨v, a, b, h, hlane, -⟩ := s.foldl_endPending o ls
  have port := State.foldl_endPending_port o once ports lanes
  rw [h] at port
  have ha : a = (ls.foldl (State.reportAs lane o) u).portA := port .a
  have hb : b = (ls.foldl (State.reportAs lane o) u).portB := port .b
  exact ⟨v, by rw [h, ha, hb], hlane⟩

/-! ## The halt -/

/-- What a halt makes of a lane that is not RUNNING (R113, R128, R156). -/
def State.haltedLane (s : State) (L : Lane) : Lane :=
  match L.state with
  | .pending => Lane.rest
  | .survey => (s.decidedBy L).leaving .release .faulted
  | .armed => L.leaving .release .faulted
  | _ => L

/-- The survey under way stops with its decision made (R107, R111). -/
theorem State.closeSurvey_lanes (s : State) (h : s.Lists (s.survey.map Survey.lane).toList .survey) :
    ∃ v : Vector Lane 15, s.closeSurvey = (s.withLanes v).withSurvey none ∧
      ∀ l, (s.withLanes v).lane l = if (s.lane l).state = .survey then s.decidedBy (s.lane l) else s.lane l := by
  rw [State.closeSurvey_eq]
  cases hw : s.survey with
  | none =>
    refine ⟨s.lanes, by simp only [State.withSurvey, ← hw]; rfl, fun l => ?_⟩
    rw [hw] at h
    rw [if_neg ((State.Lists.nil_iff s .survey).1 h l)]
    rfl
  | some w =>
    refine ⟨_, rfl, fun l => ?_⟩
    rw [hw] at h
    have only : l = w.lane ↔ (s.lane l).state = .survey := by simpa using h.mem l
    refine (s.setLane_lane w.lane l _).trans ?_
    simp only [← only]
    split
    · rename_i he
      rw [he, State.decidedBy, hw]
    · rfl

theorem State.lanesIn_disjoint (s : State) {a b : LaneState} (h : a ≠ b) : (s.lanesIn a).Disjoint (s.lanesIn b) :=
  fun l ha hb => h (((s.mem_lanesIn a l).1 ha).symm.trans ((s.mem_lanesIn b l).1 hb))

/-- The halt's effects on lanes, while the supply is HALTED: every PENDING lane is FREE with its record, the lane in
SURVEY and the ARMED ones are released (R113, R156). -/
theorem State.haltLanes_eq (s u : State) (ports : ∀ p, s.port p = u.port p) (pending : s.Lists s.surveyList .pending)
    (surveyed : s.Lists (s.survey.map Survey.lane).toList .survey) (halted : s.supply.state = .halted) :
    ∃ v : Vector Lane 15, s.haltLanes = ((((((s.withLanes v).withRetireList
        (s.retireList ++ (s.lanesIn .survey ++ s.lanesIn .armed))).withArmingList []).withSurveyList []).withSurvey
        none).setPort .a (s.surveyList.foldl (State.reportAs s.lane .faulted) u).portA).setPort .b
        (s.surveyList.foldl (State.reportAs s.lane .faulted) u).portB ∧
      ∀ l, (s.withLanes v).lane l = s.haltedLane (s.lane l) := by
  obtain ⟨v1, e1, hv1⟩ := s.closeSurvey_lanes surveyed
  have apart : (s.lanesIn .survey ++ s.lanesIn .armed).Nodup :=
    (s.lanesIn_nodup _).append (s.lanesIn_nodup _) (s.lanesIn_disjoint (by decide))
  obtain ⟨v2, e2, hv2⟩ := State.foldl_leaving .release .faulted _ ((s.withLanes v1).withSurvey none) apart
  have lane2 (l : LaneId) : (s.withLanes v2).lane l = if (s.lane l).state = .survey ∨ (s.lane l).state = .armed then
      ((s.withLanes v1).lane l).leaving .release .faulted else (s.withLanes v1).lane l := by
    have h2 := hv2 l
    simp only [List.mem_append, s.mem_lanesIn] at h2
    exact h2
  obtain ⟨v3, e3, hv3⟩ := State.foldl_endPending_reports (lane := s.lane) (u := u)
    (s := (((s.withLanes v2).withSurvey none).withRetireList
      (s.retireList ++ (s.lanesIn .survey ++ s.lanesIn .armed))).withArmingList []) .faulted pending.once
    (fun p => by rw [← ports]; cases p <;> rfl) fun l hl => by
      have hst := (pending.mem l).1 hl
      have h1 : (s.withLanes v1).lane l = s.lane l := by rw [hv1, if_neg (by simp [hst])]
      exact (lane2 l).trans (by rw [if_neg (by simp [hst]), h1])
  have none_left : s.surveyList.filter (fun k => decide (k ∉ s.surveyList)) = [] :=
    List.filter_eq_nil_iff.2 fun k hk => by simpa using hk
  refine ⟨v3, ?_, fun l => ?_⟩
  · unfold State.haltLanes
    simp only [e2, e1]
    refine (congrArg State.reconsider e3).trans ?_
    rw [State.reconsider_halted (by simpa using halted)]
    simp only [State.withArmingList_surveyList, State.withRetireList_surveyList, State.withSurvey_surveyList,
      State.withLanes_surveyList, none_left]
    rfl
  · refine (hv3 l).trans ?_
    have h3 : (((((s.withLanes v2).withSurvey none).withRetireList
      (s.retireList ++ (s.lanesIn .survey ++ s.lanesIn .armed))).withArmingList []).lane l) =
        (s.withLanes v2).lane l := rfl
    rw [h3, lane2, hv1]
    simp only [pending.mem]
    unfold State.haltedLane
    cases hst : (s.lane l).state <;> simp

/-! ## The trip -/

/-- What a trip that halts makes of a lane (R113, R123, R156). -/
def State.trippedLane (s : State) (L : Lane) : Lane :=
  match L.state with
  | .running => L.leaving .fault .faulted
  | _ => s.haltedLane L

/-- A trip that finds the recovery mark set halts the supply (R142, R153). -/
theorem Supply.trip_recovered {u : Supply} (h : u.recovery = true) (cause : TripCause) : u.trip cause =
    { u with state := .halted, cause := cause, riseTimer := none, parkTimer := none, windDown := false
             fallTimer := some u.fallDuration, recovery := true } := by
  rw [Supply.trip, h]; rfl

/-- SUPPLY_FAULT and HALTED are set (R153, R156). -/
def PortState.alarmed (q : PortState) : PortState := { q with flags := q.flags ||| 0x060 }

/-- Both ports with SUPPLY_FAULT and HALTED set. -/
def State.alarmed (s : State) : State := (s.setPort .a s.portA.alarmed).setPort .b s.portB.alarmed

theorem State.raiseBoth_alarmed (s : State) : (s.raiseBoth .supplyFault).raiseBoth .halted = s.alarmed := by
  have both {x y : BitVec 12} (q : PortState) (h : x ||| y = 0x060) :
      ({ q with flags := q.flags ||| x ||| y } : PortState) = q.alarmed := by
    rw [PortState.alarmed, BitVec.or_assoc, h]
  have bits : BitVec.twoPow 12 Flag.supplyFault.bit ||| BitVec.twoPow 12 Flag.halted.bit = 0x060 := by decide
  rw [State.alarmed, ← both s.portA bits, ← both s.portB bits]
  rfl

/-- The RUNNING lanes have retired and the scan is IDLE, with both flags raised and the supply HALTED. -/
def State.stopped (s : State) (v : Vector Lane 15) (u : Supply) : State :=
  (((s.alarmed.withLanes v).withRetireList (s.retireList ++ s.lanesIn .running)).withScan s.scan.toIdle).withSupply u

section Stopped

variable (s : State) (v : Vector Lane 15) (u : Supply)

theorem State.stopped_port (p : Port) : (s.stopped v u).port p = s.alarmed.port p := by cases p <;> rfl

theorem State.stopped_lane (l : LaneId) : (s.stopped v u).lane l = (s.withLanes v).lane l := by
  simp [State.stopped, State.withLanes_lane]

theorem State.stopped_surveyList : (s.stopped v u).surveyList = s.surveyList := by simp [State.stopped, State.alarmed]

theorem State.stopped_survey : (s.stopped v u).survey = s.survey := by simp [State.stopped, State.alarmed]

theorem State.stopped_supply : (s.stopped v u).supply = u := by simp [State.stopped, State.alarmed]

theorem State.stopped_retireList : (s.stopped v u).retireList = s.retireList ++ s.lanesIn .running := by
  simp [State.stopped]

theorem State.stopped_haltedLane (L : Lane) : (s.stopped v u).haltedLane L = s.haltedLane L := by
  simp only [State.haltedLane, State.decidedBy, State.stopped_survey]

end Stopped

/-- A trip that finds the recovery mark set stops the scan, and then ends what has not been driven. -/
theorem State.trip_stopped {s : State} (recovery : s.supply.recovery = true) (cause : TripCause) :
    ∃ v : Vector Lane 15, s.trip cause = ((s.stopped v (s.supply.trip cause)).haltLanes).startRetire ∧
      ∀ l, (s.withLanes v).lane l =
        if (s.lane l).state = .running then (s.lane l).leaving .fault .faulted else s.lane l := by
  obtain ⟨v, e, hv⟩ := (s.withSupply (s.supply.trip cause)).foldl_leaving .fault .faulted (s.lanesIn .running)
    (s.lanesIn_nodup _)
  have faulted : (s.withSupply (s.supply.trip cause)).faultRunning = _ := e
  refine ⟨v, ?_, fun l => ?_⟩
  · unfold State.trip
    simp only [faulted, recovery, if_true, State.raiseBoth_alarmed]
    rfl
  · have hl := hv l
    simp only [s.mem_lanesIn] at hl
    exact hl

/-- The lanes in a state that is neither RUNNING nor RETIRING are the same when the RUNNING ones have retired. -/
theorem State.stopped_state {s : State} {v : Vector Lane 15} (u : Supply) (lanes : ∀ l, (s.withLanes v).lane l =
      if (s.lane l).state = .running then (s.lane l).leaving .fault .faulted else s.lane l)
    (st : LaneState) (h1 : st ≠ .running) (h2 : st ≠ .retiring) (l : LaneId) :
    ((s.stopped v u).lane l).state = st ↔ (s.lane l).state = st := by
  rw [State.stopped_lane, lanes]
  split
  · rename_i hr
    rw [hr]
    exact ⟨fun he => absurd he.symm h2, fun he => absurd he.symm h1⟩
  · exact Iff.rfl

/-- A trip that finds the recovery mark set, by lanes, lists, engines, scan, supply and ports (R113, R123, R128, R142,
R156). -/
theorem State.trip_halts {s : State} (h : LanesHeld s) (recovery : s.supply.recovery = true) (cause : TripCause)
    (u : State) (ports : ∀ p, s.alarmed.port p = u.port p) : ∃ v : Vector Lane 15,
    s.trip cause = (((((((((s.withLanes v).withRetireList
      (s.retireList ++ s.lanesIn .running ++ s.lanesIn .survey ++ s.lanesIn .armed)).withArmingList []).withSurveyList
      []).withSurvey none).withScan s.scan.toIdle).withSupply (s.supply.trip cause)).setPort .a
      (s.surveyList.foldl (State.reportAs s.lane .faulted) u).portA).setPort .b
      (s.surveyList.foldl (State.reportAs s.lane .faulted) u).portB).startRetire ∧
    ∀ l, (s.withLanes v).lane l = s.trippedLane (s.lane l) := by
  obtain ⟨v1, e1, lane1⟩ := State.trip_stopped recovery cause
  have same := State.stopped_state (s.supply.trip cause) lane1
  have inState (st : LaneState) (h1 : st ≠ .running) (h2 : st ≠ .retiring) :
      (s.stopped v1 (s.supply.trip cause)).lanesIn st = s.lanesIn st :=
    List.filter_congr fun l _ => decide_eq_decide.2 (same st h1 h2 l)
  have pending := h.pending.congr (same .pending (by decide) (by decide))
  have surveyed := h.surveyed.congr (same .survey (by decide) (by decide))
  have halted : (s.stopped v1 (s.supply.trip cause)).supply.state = .halted := by
    rw [State.stopped_supply, Supply.trip_recovered recovery]
  rw [← s.stopped_surveyList v1 (s.supply.trip cause)] at pending
  rw [← s.stopped_survey v1 (s.supply.trip cause)] at surveyed
  obtain ⟨v, e, hv⟩ := State.haltLanes_eq _ u (fun p => (s.stopped_port v1 _ p).trans (ports p)) pending surveyed halted
  have reports : s.surveyList.foldl (State.reportAs (s.stopped v1 (s.supply.trip cause)).lane .faulted) u =
      s.surveyList.foldl (State.reportAs s.lane .faulted) u :=
    List.foldl_ext _ _ _ fun t l hl => by
      have hst := (h.pending.mem l).1 hl
      have same : (s.stopped v1 (s.supply.trip cause)).lane l = s.lane l := by
        rw [State.stopped_lane, lane1, if_neg (by simp [hst])]
      rw [State.reportAs, State.reportAs, same]
  refine ⟨v, ?_, fun l => ?_⟩
  · rw [e1, e, inState .survey (by decide) (by decide), inState .armed (by decide) (by decide),
      State.stopped_surveyList, State.stopped_retireList, reports, ← List.append_assoc]
    rfl
  · have hl := hv l
    rw [State.stopped_haltedLane, State.stopped_lane, lane1, State.withLanes_lane] at hl
    rw [State.withLanes_lane, hl]
    unfold State.trippedLane
    cases hst : (s.lane l).state <;> simp [State.haltedLane, Lane.leaving, hst]

/-! ## The events that trip -/

/-- The level of RAIL_GOOD (R149). -/
def State.withRailGood (s : State) (good : Bool) : State := s.withSupply { s.supply with railGood := good }

/-- RAIL_LOST in ON and RISE_TIMEOUT in RISING trip the supply (R150, R153). -/
theorem exec_trips {s : State} {i : Instr} {cause : TripCause} {good : Bool}
    (h : (i = .railLost ∧ s.supply.state = .on ∧ cause = .railLost ∧ good = false) ∨
      (i = .riseTimeout ∧ s.supply.state = .rising ∧ s.supply.riseTimer.isSome = true ∧ cause = .riseTimeout ∧
        good = s.supply.railGood)) : exec i s = .next ((s.withRailGood good).trip cause).settle := by
  rcases h with ⟨rfl, on, rfl, rfl⟩ | ⟨rfl, rising, timer, rfl, rfl⟩
  · have hs : exec .railLost s = execRailLost s := rfl
    have still : (s.withSupply { s.supply with railGood := false }).supply.state = .on := on
    rw [hs, execRailLost]
    simp only [still, if_true]
    rfl
  · have hs : exec .riseTimeout s = execRiseTimeout s := rfl
    rw [hs, execRiseTimeout, if_pos ⟨rising, timer⟩]
    rfl

theorem LanesHeld.withRailGood {s : State} (h : LanesHeld s) (good : Bool) : LanesHeld (s.withRailGood good) :=
  h.refit rfl rfl rfl rfl rfl h.walking h.lane

/-- Settles O53: the lanes and their lists as the halt leaves them, each done record given in the order of the survey
list. -/
theorem halt : Obligations.Halt := by
  intro s i cause good hi recovery hs inState mark flagged reported
  obtain ⟨v, e, hv⟩ := State.trip_halts (hs.held.withRailGood good) recovery cause s.alarmed fun p => by
    cases p <;> rfl
  have reports : reported = s.surveyList.foldl (State.reportAs s.lane .faulted) s.alarmed := rfl
  rw [State.foldl_reportAs] at reports
  refine ⟨v, fun l => (hv l).trans ?_, ?_⟩
  · have lane : (s.withRailGood good).lane l = s.lane l := rfl
    rw [lane]
    unfold State.trippedLane State.haltedLane
    cases hst : (s.lane l).state <;> simp only [hst] <;> rfl
  · rw [exec_trips hi, e, reports, Supply.trip_recovered (u := (s.withRailGood good).supply) recovery]
    rfl

end Sys2Proof.Machine
end

section
/-! The end of a survey (R107 to R109, R111, R116, R149, R150): the promotion decision, what the walk's end makes of the
lane in each case, and O44.
-/

namespace Sys2Proof.Machine

/-! ## The promotion decision -/

/-- A mode record with a promotion mode promotes a lane with unknown claims, or worn beyond its ratio (R107). -/
theorem promotes_some {m : ModeRecord} {l : Lane} {x : Nat} (h : m.promote = some x) : promotes m l = true ↔
    l.unknownClaimed > 0 ∨ (l.changing > 0 ∧ l.worn * 256 ≥ m.ratio * l.changing) := by
  simp [promotes, h]

theorem promotes_none {m : ModeRecord} (h : m.promote = none) (l : Lane) : promotes m l = false := by
  simp [promotes, h]

/-! ## The three ends of a walk -/

section Ends

variable {s : State} {w : Survey}

/-- The lane of the survey under way takes its decision and the Survey Engine is idle (R107, R111). -/
theorem State.closeSurvey_some (hw : s.survey = some w) :
    s.closeSurvey = (s.withSurvey none).setLane w.lane ((s.lane w.lane).decided w.mode) := by
  rw [State.closeSurvey_eq, hw]
  rfl

theorem State.closeSurvey_lane (hw : s.survey = some w) :
    s.closeSurvey.lane w.lane = (s.lane w.lane).decided w.mode := by
  rw [State.closeSurvey_some hw, State.setLane_lane, if_pos rfl]

/-- A record given before a lane's change is the record given after it. -/
theorem State.appendDone_setLane (s : State) (p : Port) (d : DoneRecord) (l : LaneId) (M : Lane) :
    (s.setLane l M).appendDone p d = (s.appendDone p d).setLane l M := by
  rw [State.appendDone_eq, State.appendDone_eq]
  cases p <;> rfl

/-- A walk that claimed nothing frees its lane, with an EMPTY record when it reports (R109). -/
theorem exec_surveyEnd_empty (hw : s.survey = some w) (hp : w.pos = none)
    (hc : ((s.lane w.lane).decided w.mode).claimed = 0) : exec .surveyEnd s = .next
      (((if ((s.lane w.lane).decided w.mode).report then
          (s.withSurvey none).appendDone ((s.lane w.lane).decided w.mode).owner
            (((s.lane w.lane).decided w.mode).doneRecord .empty)
        else s.withSurvey none).setLane w.lane Lane.rest).reconsider).settle := by
  have he : exec .surveyEnd s = execSurveyEnd s := rfl
  rw [he, execSurveyEnd, hw]
  simp only [hp, State.reportLane, State.closeSurvey_lane hw, hc, if_true]
  rw [State.closeSurvey_some hw]
  split
  · rw [State.appendDone_setLane, State.setLane_setLane]
  · rw [State.setLane_setLane]

/-- A walk whose claims call for no frames retires its lane as NORMAL (R108, R109). -/
theorem exec_surveyEnd_retired (hw : s.survey = some w) (hp : w.pos = none)
    (hc : ((s.lane w.lane).decided w.mode).claimed ≠ 0) (hf : ((s.lane w.lane).decided w.mode).frameCount = 0) :
    exec .surveyEnd s = .next
      ((((s.withSurvey none).setLane w.lane (((s.lane w.lane).decided w.mode).leaving .normal .completed)
        ).withRetireList (s.retireList ++ [w.lane])).startRetire).settle := by
  have he : exec .surveyEnd s = execSurveyEnd s := rfl
  rw [he, execSurveyEnd, hw]
  simp only [hp, State.closeSurvey_lane hw, if_neg hc, hf, if_true]
  rw [State.joinRetire_closeSurvey hw]
  rfl

/-- The lane of a walk with frames to drive, ARMED at the tail of the arming list (R116). -/
def State.armedBy (s : State) (w : Survey) : State :=
  ((s.withSurvey none).setLane w.lane
    { (s.lane w.lane).decided w.mode with state := .armed, frameIndex := 0, abort := false }).withArmingList
    (s.armingList ++ [w.lane])

/-- A walk with frames to drive arms its lane, which calls for the rails (R116, R150). -/
theorem exec_surveyEnd_armed (hw : s.survey = some w) (hp : w.pos = none)
    (hc : ((s.lane w.lane).decided w.mode).claimed ≠ 0) (hf : ((s.lane w.lane).decided w.mode).frameCount ≠ 0) :
    exec .surveyEnd s = .next ((s.armedBy w).raiseOnDemand).settle := by
  have he : exec .surveyEnd s = execSurveyEnd s := rfl
  rw [he, execSurveyEnd, hw]
  simp only [hp, State.closeSurvey_lane hw, if_neg hc, if_neg hf]
  rw [State.mapLane_eq, State.closeSurvey_lane hw, State.closeSurvey_some hw, State.setLane_setLane]
  rfl

/-- A supply that is OFF when rails are called for enters RISING, or ON where they are already good (R150). -/
theorem Supply.enterRising_eq (u : Supply) : u.enterRising =
    if u.railGood then { u with state := .on, riseTimer := none, parkTimer := some u.parkDuration }
    else { u with state := .rising, riseTimer := some u.riseDuration } := by
  unfold Supply.enterRising
  cases u.railGood <;> rfl

/-- Lanes on the arming list call for the rails of a supply that is OFF (R148, R150). -/
theorem State.raiseOnDemand_armed (hne : s.armingList ≠ []) : s.raiseOnDemand = s.withSupply
    (if s.supply.state ≠ .off then s.supply else s.supply.enterRising) := by
  unfold State.raiseOnDemand
  by_cases off : s.supply.state = .off
  · rw [if_pos ⟨off, hne⟩, if_neg (not_not_intro off)]
  · rw [if_neg (fun h => off h.1), if_pos off]
    rfl

end Ends

/-- Settles O44: the walk's end by the claims and the frames, and the decision by whether the mode promotes. -/
theorem surveyEnd : Obligations.SurveyEnd := by
  refine ⟨fun s w hw hp => ⟨fun hc => ?_, fun hc hf => ?_, fun hc hf => ?_⟩,
    fun m l => ⟨fun x hx hl => ?_, fun hl => ?_⟩⟩
  · rw [exec_surveyEnd_empty hw hp hc]
    rfl
  · rw [exec_surveyEnd_retired hw hp (by omega) hf]
    rfl
  · rw [exec_surveyEnd_armed hw hp (by omega) (by omega), State.raiseOnDemand_armed (by simp [State.armedBy]),
      Supply.enterRising_eq]
    rfl
  · rw [Lane.decided, (promotes_some hx).2 hl, hx]
    rfl
  · have unpromoted : promotes m l = false := by
      cases hx : m.promote with
      | none => exact promotes_none hx l
      | some x =>
        rw [← Bool.not_eq_true, promotes_some hx]
        simpa [hx] using hl
    rw [Lane.decided, unpromoted]
    rfl

end Sys2Proof.Machine
end

section
/-! The supply's events and the trips (R113, R123, R142, R148 to R157): each keeps the lanes, their lists, the engines, the
scan and the supply in agreement.
-/

namespace Sys2Proof.Machine

/-! ## What follows every event -/

theorem LanesSound.settle {s : State} (h : LanesSound s) : LanesSound s.settle := h.congr (LinkOnly.settle s).fleet

/-! ## The supply -/

section Supply

variable {s : State}

/-- The supply changes: not to OFF under a demand, not to HALTED, and not from ON under a scan (R148, R151, R157). -/
theorem LanesSound.withSupply (h : LanesSound s) {u : Supply} (off : u.state = .off → s.armingList = [])
    (halted : u.state = .halted → s.supply.state = .halted)
    (rails : s.scan.scanning = true → u.state = .on ∧ u.parkTimer = none) : LanesSound (s.withSupply u) :=
  { h with
    rails := rails
    demand := fun hne hoff => hne (off hoff)
    halted := fun hh => h.halted (halted hh) }

/-- The supply's state and its park timer stand. -/
theorem LanesSound.sameSupply (h : LanesSound s) {u : Supply} (state : u.state = s.supply.state)
    (park : u.parkTimer = s.supply.parkTimer) : LanesSound (s.withSupply u) := by
  refine h.withSupply (fun hu => ?_) (fun hu => state ▸ hu) fun hs => ?_
  · by_contra hne
    exact h.demand hne (state ▸ hu)
  · rw [state, park]
    exact h.rails hs

/-- The scan is IDLE while the supply is not ON (R136). -/
theorem LanesSound.scan_idle (h : LanesSound s) (hs : s.supply.state ≠ .on) : s.scan.scanning = false :=
  Bool.eq_false_of_not_eq_true fun hc => hs (h.rails hc).1

/-- The supply changes while the scan is IDLE. -/
theorem LanesSound.withSupply_idle (h : LanesSound s) {u : Supply} (idle : s.scan.scanning = false)
    (off : u.state = .off → s.armingList = []) (halted : u.state = .halted → s.supply.state = .halted) :
    LanesSound (s.withSupply u) :=
  h.withSupply off halted fun hs => absurd (idle.symm.trans hs) (by decide)

theorem Supply.enterRising_state (u : Supply) : u.enterRising.state = .rising ∨ u.enterRising.state = .on := by
  rw [Supply.enterRising_eq]
  split
  · exact .inr rfl
  · exact .inl rfl

theorem LanesSound.railGoodAsserted (h : LanesSound s) : Answers (execRailGoodAsserted s) LanesSound := by
  refine .next (LanesSound.settle ?_)
  simp only
  split
  · rename_i rising
    have idle : s.scan.scanning = false := h.scan_idle fun hon => by
      have both : SupplyState.on = .rising := hon.symm.trans rising
      cases both
    exact h.withSupply_idle idle (fun hu => by cases hu) fun hu => by cases hu
  · exact h.sameSupply rfl rfl

/-- The park timer runs while the scan is IDLE alone (R151). -/
theorem LanesSound.parkTimerExpiry (h : LanesSound s) : Answers (execParkTimerExpiry s) LanesSound := by
  unfold execParkTimerExpiry
  split
  · rename_i hp
    have idle : s.scan.scanning = false := Bool.eq_false_of_not_eq_true fun hc => by
      rw [(h.rails hc).2] at hp
      exact absurd hp.2 (by decide)
    exact .next (h.withSupply_idle idle (fun hu => by cases hu) fun hu => by cases hu).settle
  · exact .next h

/-- A supply that has fallen is OFF, or rises again under a demand (R150, R152). -/
theorem LanesSound.fallen (h : LanesSound s) (hs : s.supply.state ≠ .on) :
    LanesSound ((s.withSupply { s.supply with fallTimer := none, state := .off }).raiseOnDemand) := by
  have idle := h.scan_idle hs
  unfold State.raiseOnDemand
  split
  · rcases Supply.enterRising_state { s.supply with fallTimer := none, state := .off } with hr | hr
    all_goals exact h.withSupply_idle idle (fun hu => by cases hr.symm.trans hu) fun hu => by cases hr.symm.trans hu
  · rename_i hn
    exact h.withSupply_idle idle (fun _ => by_contra fun hne => hn ⟨rfl, hne⟩) fun hu => by cases hu

theorem LanesSound.fallTimerExpiry (h : LanesSound s) : Answers (execFallTimerExpiry s) LanesSound := by
  unfold execFallTimerExpiry
  split
  · simp only
    split
    · rename_i hs
      exact .next (h.fallen (by rw [hs]; decide)).settle
    · rename_i hs
      exact .next (h.fallen (by rw [hs]; decide)).settle
    · exact .next (LanesSound.settle (h.sameSupply rfl rfl))
  · exact .next h

end Supply

/-! ## The trips -/

section Trips

variable {s : State}

/-- The decision reads and changes no frame index (R107, R108). -/
theorem Lane.decided_frameIndex (L : Lane) (m : ModeRecord) : (L.decided m).frameIndex = L.frameIndex := by
  rw [Lane.decided]
  split <;> rfl

theorem State.decidedBy_frameIndex (s : State) (L : Lane) : (s.decidedBy L).frameIndex = L.frameIndex := by
  rw [State.decidedBy]
  split
  · exact L.decided_frameIndex _
  · rfl

/-- Every RUNNING lane retires, and the supply is neither OFF nor HALTED (R123, R153). -/
theorem LanesHeld.faultRunning {t : State} (h : LanesHeld s) (lane : ∀ l, t.lane l =
      if (s.lane l).state = .running then (s.lane l).leaving .fault .faulted else s.lane l)
    (surveyList : t.surveyList = s.surveyList) (survey : t.survey = s.survey) (armingList : t.armingList = s.armingList)
    (retireList : t.retireList = s.retireList ++ s.lanesIn .running) (retire : t.retire = s.retire)
    (off : t.supply.state ≠ .off) (halted : t.supply.state ≠ .halted) : LanesHeld t := by
  have other (st : LaneState) (h1 : st ≠ .running) (h2 : st ≠ .retiring) (l : LaneId) :
      (t.lane l).state = st ↔ (s.lane l).state = st := by
    rw [lane]
    split
    · rename_i hr
      rw [hr]
      exact ⟨fun he => absurd he.symm h2, fun he => absurd he.symm h1⟩
    · exact Iff.rfl
  have retired (l : LaneId) : (t.lane l).state = .retiring ↔ (s.lane l).state = .retiring ∨ l ∈ s.lanesIn .running := by
    rw [lane, s.mem_lanesIn]
    split
    · rename_i hr
      exact ⟨fun _ => .inr hr, fun _ => rfl⟩
    · rename_i hr
      exact ⟨.inl, fun ho => ho.resolve_right hr⟩
  refine ⟨fun l => ?_, surveyList ▸ h.pending.congr (other .pending (by decide) (by decide)),
    survey ▸ h.surveyed.congr (other .survey (by decide) (by decide)),
    armingList ▸ h.armed.congr (other .armed (by decide) (by decide)),
    retireList ▸ h.retiring.append (s.lanesIn_nodup _) (fun l hl => ?_) retired, fun w hw => ?_⟩
  · rw [lane]
    cases hst : (s.lane l).state with
    | running =>
      rw [if_pos rfl]
      exact (Lane.fits_retiring rfl).2 ⟨(h.running hst).1.le, rfl, rfl⟩
    | free => rw [if_neg (by decide)]; exact (Lane.fits_free hst).2 (h.free hst)
    | pending =>
      rw [if_neg (by decide)]
      exact (Lane.fits_pending hst).2 ⟨h.unstarted (by simp [hst]) (by simp [hst]), halted⟩
    | survey =>
      rw [if_neg (by decide)]
      exact (Lane.fits_survey hst).2 ⟨h.unstarted (by simp [hst]) (by simp [hst]), halted⟩
    | armed =>
      rw [if_neg (by decide)]
      obtain ⟨index, frames, -⟩ := h.armedLane hst
      exact (Lane.fits_armed hst).2 ⟨index, frames, off, halted⟩
    | retiring => rw [if_neg (by decide)]; exact (Lane.fits_retiring hst).2 (h.retired hst)
  · rw [(s.mem_lanesIn _ l).1 hl]; decide
  · rw [retireList, List.head?_append, h.walking w (retire ▸ hw)]
    rfl

/-- A trip with the recovery mark clear: the RUNNING lanes retire, and the scan is IDLE (R123, R142, R153). -/
theorem LanesSound.trip_recovers (h : LanesSound s) (recovery : s.supply.recovery = false) (cause : TripCause) :
    LanesSound (s.trip cause) := by
  obtain ⟨v, e, hv⟩ := (s.withSupply (s.supply.trip cause)).foldl_leaving .fault .faulted (s.lanesIn .running)
    (s.lanesIn_nodup _)
  have faulted : (s.withSupply (s.supply.trip cause)).faultRunning = _ := e
  have tripped : (s.supply.trip cause).state = .tripped := by rw [Supply.trip, recovery]; rfl
  have held : LanesHeld ((((s.withSupply (s.supply.trip cause)).withLanes v).withRetireList
      (s.retireList ++ s.lanesIn .running)).withScan s.scan.toIdle) := by
    refine h.held.faultRunning (fun l => ?_) rfl rfl rfl rfl rfl (fun hu => ?_) fun hu => ?_
    · have hl := hv l
      simp only [s.mem_lanesIn] at hl
      exact hl
    · cases tripped.symm.trans hu
    · cases tripped.symm.trans hu
  have idle : ScanHeld ((((s.withSupply (s.supply.trip cause)).withLanes v).withRetireList
      (s.retireList ++ s.lanesIn .running)).withScan s.scan.toIdle) := .ofIdle rfl rfl
  unfold State.trip
  simp only [faulted, recovery]
  exact (held.congr (State.raiseBoth_fleet _ _)).startRetire (idle.congr (State.raiseBoth_fleet _ _))

/-- A halt leaves lanes that are FREE or RETIRING alone (R113, R156). -/
theorem LanesHeld.halted {t : State} (h : LanesHeld s) (lane : ∀ l, t.lane l = s.trippedLane (s.lane l))
    (surveyList : t.surveyList = []) (survey : t.survey = none) (armingList : t.armingList = [])
    (retireList : t.retireList = s.retireList ++ s.lanesIn .running ++ s.lanesIn .survey ++ s.lanesIn .armed)
    (retire : t.retire = s.retire) : LanesHeld t := by
  have ended (l : LaneId) : (t.lane l).state = .free ∨ (t.lane l).state = .retiring := by
    rw [lane, State.trippedLane, State.haltedLane]
    cases hst : (s.lane l).state <;> simp [hst, Lane.rest, Lane.leaving]
  have empty (st : LaneState) (h1 : st ≠ .free) (h2 : st ≠ .retiring) : t.Lists [] st :=
    (State.Lists.nil_iff t st).2 fun l hl =>
      (ended l).elim (fun he => h1 (hl.symm.trans he)) fun he => h2 (hl.symm.trans he)
  have joined :
      t.Lists (s.retireList ++ (s.lanesIn .running ++ (s.lanesIn .survey ++ s.lanesIn .armed))) .retiring := by
    refine h.retiring.append ?_ (fun l hl => ?_) fun l => ?_
    · refine (s.lanesIn_nodup _).append ?_ (List.disjoint_append_right.2
        ⟨s.lanesIn_disjoint (by decide), s.lanesIn_disjoint (by decide)⟩)
      exact (s.lanesIn_nodup _).append (s.lanesIn_nodup _) (s.lanesIn_disjoint (by decide))
    · simp only [List.mem_append, s.mem_lanesIn] at hl
      rcases hl with hl | hl | hl <;> rw [hl] <;> decide
    · simp only [List.mem_append, s.mem_lanesIn]
      rw [lane, State.trippedLane, State.haltedLane]
      cases hst : (s.lane l).state <;> simp [hst, Lane.rest, Lane.leaving]
  refine ⟨fun l => ?_, surveyList ▸ empty .pending (by decide) (by decide), ?_,
    armingList ▸ empty .armed (by decide) (by decide), ?_, fun w hw => ?_⟩
  · rw [lane, State.trippedLane, State.haltedLane]
    cases hst : (s.lane l).state with
    | free => exact (Lane.fits_free hst).2 (h.free hst)
    | pending => exact (Lane.fits_free rfl).2 rfl
    | survey =>
      have index : ((s.decidedBy (s.lane l)).leaving .release .faulted).frameIndex = 0 :=
        (s.decidedBy_frameIndex _).trans (h.unstarted (by simp [hst]) (by simp [hst]))
      exact (Lane.fits_retiring rfl).2 ⟨by rw [index]; exact Nat.zero_le _, rfl, rfl⟩
    | armed =>
      have index : ((s.lane l).leaving .release .faulted).frameIndex = 0 := (h.armedLane hst).1
      exact (Lane.fits_retiring rfl).2 ⟨by rw [index]; exact Nat.zero_le _, rfl, rfl⟩
    | running => exact (Lane.fits_retiring rfl).2 ⟨(h.running hst).1.le, rfl, rfl⟩
    | retiring => exact (Lane.fits_retiring hst).2 (h.retired hst)
  · rw [survey]; exact empty .survey (by decide) (by decide)
  · rw [retireList, List.append_assoc, List.append_assoc]; exact joined
  · rw [retireList, List.append_assoc, List.append_assoc, List.head?_append, h.walking w (retire ▸ hw)]
    rfl

/-- A trip with the recovery mark set: only RETIRING lanes are left, and the scan is IDLE (R113, R142, R156). -/
theorem LanesSound.trip_halts (h : LanesSound s) (recovery : s.supply.recovery = true) (cause : TripCause) :
    LanesSound (s.trip cause) := by
  obtain ⟨v, e, hv⟩ := State.trip_halts h.held recovery cause s.alarmed fun p => rfl
  have held : LanesHeld (((((((s.withLanes v).withRetireList
      (s.retireList ++ s.lanesIn .running ++ s.lanesIn .survey ++ s.lanesIn .armed)).withArmingList []).withSurveyList
      []).withSurvey none).withScan s.scan.toIdle).withSupply (s.supply.trip cause)) :=
    h.held.halted (fun l => by simpa using hv l) (by simp) (by simp) (by simp) (by simp) (by simp)
  have idle : ScanHeld (((((((s.withLanes v).withRetireList
      (s.retireList ++ s.lanesIn .running ++ s.lanesIn .survey ++ s.lanesIn .armed)).withArmingList []).withSurveyList
      []).withSurvey none).withScan s.scan.toIdle).withSupply (s.supply.trip cause)) := .ofIdle rfl rfl
  rw [e]
  refine LanesHeld.startRetire (held.congr ?_) (idle.congr ?_) <;> rw [State.setPort_fleet, State.setPort_fleet]

theorem LanesSound.trip (h : LanesSound s) (cause : TripCause) : LanesSound (s.trip cause) := by
  cases hr : s.supply.recovery with
  | false => exact h.trip_recovers hr cause
  | true => exact h.trip_halts hr cause

theorem LanesSound.railLost (h : LanesSound s) : Answers (execRailLost s) LanesSound := by
  have low : LanesSound (s.withSupply { s.supply with railGood := false }) := h.sameSupply rfl rfl
  refine .next (LanesSound.settle ?_)
  split
  · exact low.trip _
  · exact low

theorem LanesSound.riseTimeout (h : LanesSound s) : Answers (execRiseTimeout s) LanesSound := by
  unfold execRiseTimeout
  split
  · exact .next (h.trip _).settle
  · exact .next h

end Trips

end Sys2Proof.Machine
end

section
/-! The Frame Scanner's events (R117 to R121, R136 to R143): lanes enter RUNNING, count clips, advance and retire with
their lists.
-/

namespace Sys2Proof.Machine

variable {s : State}

/-! ## Lanes that enter the scan -/

/-- The lanes of a part of the arming list run, each from frame index 0 (R117, R118). -/
theorem State.admitLane_eq (s : State) {ls : List LaneId} (once : ls.Nodup) : ∃ v : Vector Lane 15,
    s.admitLane ls = (s.withLanes v).withArmingList (s.armingList.filter fun l => !ls.contains l) ∧
      ∀ l, (s.withLanes v).lane l =
        if l ∈ ls then { s.lane l with state := .running, frameIndex := 0 } else s.lane l := by
  obtain ⟨v, e, hv⟩ := s.foldl_mapLane (fun _ r => { r with state := .running, frameIndex := 0 }) ls once
  exact ⟨v, by rw [State.admitLane, e], hv⟩

/-- Lanes of the scan band leave the arming list and run (R117, R118). -/
theorem LanesHeld.enterScan (h : LanesHeld s) {ls : List LaneId} (once : ls.Nodup)
    (armed : ∀ l ∈ ls, (s.lane l).state = .armed) {c : Scanner} (on : c.scanning = true)
    (band : ∀ l, l ∈ ls ∨ (s.lane l).state = .running → (s.lane l).band = c.band) :
    LanesHeld ((s.admitLane ls).withScan c) ∧
      ∀ l, (s.lane l).state = .running ∨ l ∈ ls → (((s.admitLane ls).withScan c).lane l).state = .running := by
  obtain ⟨v, e, hv⟩ := s.admitLane_eq once
  rw [e]
  generalize ht : ((s.withLanes v).withArmingList (s.armingList.filter fun l => !ls.contains l)).withScan c = t
  have lane (l : LaneId) : t.lane l =
      if l ∈ ls then { s.lane l with state := .running, frameIndex := 0 } else s.lane l := by
    rw [← hv l, ← ht, State.withScan_lane, State.withArmingList_lane]
  have other (st : LaneState) (h1 : st ≠ .armed) (h2 : st ≠ .running) (l : LaneId) :
      (t.lane l).state = st ↔ (s.lane l).state = st := by
    rw [lane]
    split
    · rename_i hl
      rw [armed l hl]
      exact ⟨fun he => absurd he.symm h2, fun he => absurd he.symm h1⟩
    · exact Iff.rfl
  have left (l : LaneId) : (t.lane l).state = .armed ↔ (s.lane l).state = .armed ∧ (!ls.contains l) = true := by
    rw [lane, Bool.not_eq_true', ← Bool.not_eq_true, List.contains_iff_mem]
    split
    · rename_i hl
      exact ⟨fun he => (by cases he), fun he => absurd hl he.2⟩
    · rename_i hl
      exact ⟨fun he => ⟨he, hl⟩, fun he => he.1⟩
  have fits (l : LaneId) : (t.lane l).Fits c s.supply := by
    rw [lane]
    split
    · rename_i hl
      exact (Lane.fits_running rfl).2 ⟨(h.armedLane (armed l hl)).2.1, band l (.inl hl), on⟩
    · cases hst : (s.lane l).state with
      | running => exact (Lane.fits_running hst).2 ⟨(h.running hst).1, band l (.inr hst), on⟩
      | free => exact (Lane.fits_free hst).2 (h.free hst)
      | pending => exact (Lane.fits_pending hst).2 ((Lane.fits_pending hst).1 (h.lane l))
      | survey => exact (Lane.fits_survey hst).2 ((Lane.fits_survey hst).1 (h.lane l))
      | armed => exact (Lane.fits_armed hst).2 (h.armedLane hst)
      | retiring => exact (Lane.fits_retiring hst).2 (h.retired hst)
  refine ⟨?_, fun l hl => ?_⟩
  · have pending := h.pending.congr (other .pending (by decide) (by decide))
    have surveyed := h.surveyed.congr (other .survey (by decide) (by decide))
    have arming := h.armed.filter _ left
    have retiring := h.retiring.congr (other .retiring (by decide) (by decide))
    subst ht
    exact ⟨fits, pending, surveyed, arming, retiring, h.walking⟩
  · rw [lane]
    split
    · rfl
    · rename_i hn
      exact hl.resolve_right hn

theorem Scanner.beginFrame_scanning (c : Scanner) : c.beginFrame.scanning = c.scanning := rfl

theorem Scanner.beginFrame_band (c : Scanner) : c.beginFrame.band = c.band := rfl

theorem LanesSound.scanStart (h : LanesSound s) : Answers (execScanStart s) LanesSound := by
  unfold execScanStart
  split
  · rename_i k rest hk
    split
    · rename_i hs
      obtain ⟨on, idle⟩ := hs
      refine .next (LanesSound.settle ?_)
      simp only
      generalize hls : s.armingList.filter (fun l => decide ((s.lane l).band = (s.lane k).band)) = ls
      have mem (l : LaneId) : l ∈ ls ↔ (s.lane l).state = .armed ∧ (s.lane l).band = (s.lane k).band := by
        rw [← hls, List.mem_filter, h.armed, decide_eq_true_eq]
      have once : ls.Nodup := hls ▸ h.held.armed.once.filter _
      obtain ⟨v, e, -⟩ := s.admitLane_eq once
      have first : k ∈ ls := (mem k).2 ⟨(h.armed k).1 (by rw [hk]; exact List.mem_cons_self), rfl⟩
      obtain ⟨held, running⟩ := h.held.enterScan once (fun l hl => ((mem l).1 hl).1)
        (c := ({ (s.admitLane ls).scan with
          scanning := true, band := (s.lane k).band, period := (s.lane k).band.bind s.bandPeriod, counter := 0
          } : Scanner).beginFrame)
        rfl fun l hl => by
          rcases hl with hl | hl
          · exact ((mem l).1 hl).2
          · exact absurd (idle.symm.trans (h.held.running hl).2.2) (by decide)
      refine (LanesHeld.sameSupply held ?_).sound ⟨fun _ => ⟨k, running k (.inr first)⟩, fun hn => (by cases hn),
        fun _ => ⟨?_, rfl⟩⟩ ?_
      · rfl
      · rw [e]; exact on
      · rw [e]; exact h.idle
    · exact .next h
  · exact .next h

/-! ## Lanes that are driven -/

/-- A lane that does not run counts no clips (R139, R140). -/
theorem State.clips_of_not_running (s : State) (visits : Pos → Bool) {l : LaneId} (h : (s.lane l).state ≠ .running) :
    s.clips visits l = 0 := by
  refine List.countP_eq_zero.2 fun c _ hc => ?_
  simp only [Bool.and_eq_true, decide_eq_true_eq] at hc
  obtain ⟨⟨-, named⟩, clips⟩ := hc
  have hold : s.driveCode c.2 = .hold := by
    unfold State.driveCode
    rw [named]
    exact if_neg h
  rw [hold] at clips
  cases clips

/-- A walk of the frame changes the clip counts of RUNNING lanes alone (R138 to R140). -/
theorem LanesHeld.drive (h : LanesHeld s) (visits : Pos → Bool) : LanesHeld (s.drive visits) := by
  obtain ⟨v, e, hv⟩ := s.drive_eq visits
  have lane (l : LaneId) : (s.drive visits).lane l =
      { s.lane l with saturated := min 65535 ((s.lane l).saturated + s.clips visits l) } := by
    rw [← hv l, e, State.withPixels_lane]
  refine h.relane (fun l => by rw [lane]) (by rw [e]; rfl) (by rw [e]; rfl) (by rw [e]; rfl) (by rw [e]; rfl)
    (by rw [e]; exact h.walking) fun l => ?_
  have scan : (s.drive visits).scan = s.scan := s.drive_scan visits
  have supply : (s.drive visits).supply = s.supply := by rw [e]; rfl
  rw [lane, scan, supply]
  have fits := h.lane l
  cases hst : (s.lane l).state with
  | free =>
    refine (Lane.fits_free (by exact hst)).2 ?_
    rw [s.clips_of_not_running visits (by simp [hst]), h.free hst]
    rfl
  | _ => exact fits.alike (by simp [hst]) rfl rfl rfl rfl rfl rfl

/-- A walk of the frame leaves every lane in its state, and the supply and the Retire Engine as they are. -/
theorem State.drive_rest (s : State) (visits : Pos → Bool) : (∀ l, ((s.drive visits).lane l).state = (s.lane l).state) ∧
    (s.drive visits).supply = s.supply ∧ (s.drive visits).retire = s.retire ∧
    (s.drive visits).retireList = s.retireList := by
  obtain ⟨v, e, -⟩ := s.drive_eq visits
  exact ⟨(s.drive_armed visits).2, by rw [e]; rfl, by rw [e]; rfl, by rw [e]; rfl⟩

/-- A walk of the frame, with the scan then at a later place of it. -/
theorem LanesSound.driven (h : LanesSound s) (visits : Pos → Bool) {c : Scanner} (on : c.scanning = s.scan.scanning)
    (band : c.band = s.scan.band) (mark : c.pendingMark = s.scan.pendingMark) :
    LanesSound ((s.drive visits).withScan c) := by
  obtain ⟨state, supply, retire, retireList⟩ := s.drive_rest visits
  have same : (s.drive visits).scan = s.scan := s.drive_scan visits
  refine ((h.held.drive visits).sameScan (by rw [same]; exact on) (by rw [same]; exact band)).sound
    ⟨fun hs => ?_, fun hs => ?_, fun hs => ?_⟩ fun hn => ?_
  · obtain ⟨l, hl⟩ := h.scan.driving (on.symm.trans hs)
    exact ⟨l, by rw [State.withScan_lane, state, hl]⟩
  · exact mark.trans (h.idleMark (on.symm.trans hs))
  · rw [State.withScan_supply, supply]
    exact h.rails (on.symm.trans hs)
  · rw [State.withScan_retire, retire] at hn
    rw [State.withScan_retireList, retireList]
    exact h.idle hn

theorem LanesSound.frameRow (h : LanesSound s) (n : Nat) : Answers (execFrameRow n s) LanesSound := by
  unfold execFrameRow
  simp only
  split
  · exact .next (LanesSound.settle (h.driven _ rfl rfl rfl))
  · exact .next h

/-! ## Lanes that advance -/

/-- The lane after one more frame (R119). -/
def Lane.advanced (L : Lane) : Lane := { L with frameIndex := L.frameIndex + 1 }

/-- At a boundary a lane that aborts retires PARTIAL_DRIVE, one whose last frame it was NORMAL, and any other runs on
(R121, R122, R127). -/
theorem State.advanceLane_eq (s : State) (l : LaneId) : s.advanceLane l =
    if (s.lane l).abort then (s.setLane l ((s.lane l).advanced.leaving .partialDrive .withdrawn)).withRetireList
      (s.retireList ++ [l])
    else if (s.lane l).frameIndex + 1 = (s.lane l).frameCount then
      (s.setLane l ((s.lane l).advanced.leaving .normal .completed)).withRetireList (s.retireList ++ [l])
    else s.setLane l (s.lane l).advanced := by
  unfold State.advanceLane
  simp only [State.mapLane_eq, State.joinRetire_eq, State.setLane_lane, State.setLane_setLane, if_true]
  rfl

/-- A RUNNING lane advances, or retires (R121). -/
theorem LanesHeld.advanceLane (h : LanesHeld s) {l : LaneId} (hl : (s.lane l).state = .running) :
    LanesHeld (s.advanceLane l) := by
  obtain ⟨index, band, on⟩ := h.running hl
  have retires (k : RetireKind) (o : UpdateOutcome) : ((s.lane l).advanced.leaving k o).Fits s.scan s.supply :=
    (Lane.fits_retiring rfl).2 ⟨index, rfl, rfl⟩
  rw [State.advanceLane_eq]
  split
  · exact h.retireRunning hl rfl (retires _ _)
  · split
    · exact h.retireRunning hl rfl (retires _ _)
    · rename_i more
      have later : (s.lane l).advanced.frameIndex < (s.lane l).advanced.frameCount := by
        simp only [Lane.advanced]
        omega
      exact h.move (.stays s rfl) ((Lane.fits_running (by exact hl)).2 ⟨later, band, on⟩)

/-- All RUNNING lanes advance (R121). -/
theorem LanesHeld.advance (h : LanesHeld s) : LanesHeld s.advance := by
  have fold (ls : List LaneId) (once : ls.Nodup) : ∀ t : State, LanesHeld t → (∀ l ∈ ls, (t.lane l).state = .running) →
      LanesHeld (ls.foldl State.advanceLane t) := by
    induction ls with
    | nil => exact fun _ ht _ => ht
    | cons k ls ih =>
      intro t ht running
      obtain ⟨hk, once⟩ := List.nodup_cons.1 once
      refine ih once _ (ht.advanceLane (running k List.mem_cons_self)) fun l hl => ?_
      have other : l ≠ k := fun he => hk (he ▸ hl)
      rw [t.advanceLane_other other]
      exact running l (List.mem_cons_of_mem _ hl)
  exact fold _ (s.lanesIn_nodup _) s h fun l hl => (s.mem_lanesIn _ l).1 hl

/-! ## The boundary -/

/-- Where no lane runs on, the scan is IDLE and the supply parks or falls (R142, R151, R160). -/
theorem LanesHeld.endScan (h : LanesHeld s) (on : s.supply.state = .on)
    (ended : ∀ l, (s.lane l).state ≠ .running) : LanesHeld s.endScan := by
  have powered : s.endScan.supply.state ≠ .off ∧ s.endScan.supply.state ≠ .halted := by
    simp only [State.endScan, State.withSupply_supply]
    split
    · simp [Supply.enterFalling]
    · simp [on]
  obtain ⟨off, halted⟩ := powered
  refine h.refit rfl rfl rfl rfl rfl h.walking fun l => ?_
  have fits := h.lane l
  cases hst : (s.lane l).state with
  | free => exact (Lane.fits_free hst).2 (h.free hst)
  | pending => exact (Lane.fits_pending hst).2 ⟨((Lane.fits_pending hst).1 fits).1, halted⟩
  | survey => exact (Lane.fits_survey hst).2 ⟨((Lane.fits_survey hst).1 fits).1, halted⟩
  | armed =>
    obtain ⟨index, frames, -⟩ := h.armedLane hst
    exact (Lane.fits_armed hst).2 ⟨index, frames, off, halted⟩
  | running => exact absurd hst (ended l)
  | retiring => exact (Lane.fits_retiring hst).2 (h.retired hst)

/-- After the lanes have advanced, either none runs and the scan ends, or those that may join are admitted (R117, R121,
R141, R142). -/
theorem LanesHeld.boundary (h : LanesHeld s) (on : s.scan.scanning = true)
    (rails : s.supply.state = .on ∧ s.supply.parkTimer = none) :
    LanesSound (if (s.lanesIn .running).isEmpty then s.endScan
      else (s.admitLane s.admissible).withScan (s.admitLane s.admissible).scan.beginFrame).startRetire := by
  split
  · rename_i none_left
    refine (h.endScan rails.1 fun l hl => ?_).startRetire (.ofIdle rfl rfl)
    rw [List.isEmpty_iff] at none_left
    exact absurd ((s.mem_lanesIn _ l).2 hl) (by simp [none_left])
  · rename_i some_left
    obtain ⟨l, hl⟩ := List.exists_mem_of_ne_nil _ (fun he => some_left (List.isEmpty_iff.2 he))
    have front : s.admissible.Sublist s.armingList := List.takeWhile_sublist _
    have once := h.armed.once.sublist front
    obtain ⟨v, e, -⟩ := s.admitLane_eq once
    have scan : (s.admitLane s.admissible).scan = s.scan := by rw [e]; rfl
    have supply : (s.admitLane s.admissible).supply = s.supply := by rw [e]; rfl
    obtain ⟨held, running⟩ := h.enterScan once (fun l hl => (h.armed.mem l).1 (front.subset hl))
      (c := (s.admitLane s.admissible).scan.beginFrame) (by rw [Scanner.beginFrame_scanning, scan]; exact on)
      fun l hl => by
        rw [Scanner.beginFrame_band, scan]
        rcases hl with hl | hl
        · simpa using List.mem_takeWhile_imp hl
        · exact (h.running hl).2.1
    refine held.startRetire ⟨fun _ => ⟨l, running l (.inl ((s.mem_lanesIn _ l).1 hl))⟩, fun _ => rfl, fun _ => ?_⟩
    rw [State.withScan_supply, supply]
    exact rails

theorem LanesSound.withScan (h : LanesSound s) {c : Scanner} (on : c.scanning = s.scan.scanning)
    (band : c.band = s.scan.band) (idleMark : c.scanning = false → c.pendingMark = none) : LanesSound (s.withScan c) :=
  (h.held.sameScan on band).sound ⟨fun hs => h.scan.driving (on.symm.trans hs), idleMark,
    fun hs => h.rails (on.symm.trans hs)⟩ h.idle

/-- What follows a frame (R117, R121, R142): the scan and the supply are as they were when its lanes advance. -/
theorem LanesSound.advanced (h : LanesSound s) (on : s.scan.scanning = true) :
    LanesSound (if (s.advance.lanesIn .running).isEmpty then s.advance.endScan
      else (s.advance.admitLane s.advance.admissible).withScan
        (s.advance.admitLane s.advance.admissible).scan.beginFrame).startRetire := by
  have supply : s.advance.supply = s.supply := by rw [(LaneOnly.advance s).body]
  refine h.held.advance.boundary ?_ ?_
  · rw [(LaneOnly.advance s).scan]
    exact on
  · rw [supply]
    exact h.rails on

theorem LanesSound.frameBoundary (h : LanesSound s) : Answers (execFrameBoundary s) LanesSound := by
  unfold execFrameBoundary
  split
  · rename_i on
    have finished : LanesSound s.finishFrame := h.driven s.unvisited rfl rfl rfl
    have still : s.finishFrame.scan.scanning = true := on
    refine .next (LanesSound.settle ?_)
    simp only
    generalize s.finishFrame = f at finished still
    have counted := finished.withScan (c := { f.scan with counter := (f.scan.counter + 1) % 65536 }) rfl rfl
      finished.idleMark
    exact (counted.sameSupply (u := { f.supply with recovery := false }) rfl rfl).advanced still
  · exact .next h

end Sys2Proof.Machine
end

section
/-! The events of the Survey Engine, the Retire Engine, the power, the table and the streams: each keeps the lanes,
their lists, the engines, the scan and the supply in agreement.
-/

namespace Sys2Proof.Machine

variable {s : State}

/-! ## The Survey Engine -/

theorem LanesSound.surveyStarted (h : LanesSound s) : Answers (execSurveyStart s) LanesSound := by
  unfold execSurveyStart
  split
  · rename_i l rest hn hl
    exact .next (LanesSound.settle (h.startSurvey (w := {
        lane := l, pos := some (s.lane l).rect.origin, residueLimit := s.residueLimit, wearLimit := s.wearLimit
        mode := s.modeRecord (s.lane l).requestedMode
        promoteMode := (s.modeRecord (s.lane l).requestedMode).promote.map s.modeRecord, read := none }) hn hl rfl rfl))
  · exact .next h

/-- A record visit changes its lane's counts (R98 to R106). -/
theorem LanesSound.visitRecord (h : LanesSound s) {w : Survey} (hw : s.survey = some w) (x : Pos) (v : Level) :
    LanesSound (s.visitRecord w x v) := by
  have surveyed := h.surveyed_lane hw
  have counts {M : Lane} (state : M.state = (s.lane w.lane).state) (index : M.frameIndex = (s.lane w.lane).frameIndex)
      (frames : M.frameCount = (s.lane w.lane).frameCount) (band : M.band = (s.lane w.lane).band)
      (kind : M.kind = (s.lane w.lane).kind) (outcome : M.outcome = (s.lane w.lane).outcome) :
      LanesSound (s.setLane w.lane M) :=
    h.setLane state ((h.fits w.lane).alike (by simp [surveyed]) state index frames band kind outcome)
  unfold State.visitRecord
  simp only [State.mapLane_eq]
  split
  · exact counts rfl rfl rfl rfl rfl rfl
  · exact counts rfl rfl rfl rfl rfl rfl
  · exact counts rfl rfl rfl rfl rfl rfl
  · exact h
  · exact (counts (M := s.claimCounts w (s.pixel x) (quantize w.mode.levels v) (s.lane w.lane)) rfl rfl rfl rfl rfl
      rfl).congr rfl

/-- The survey goes on with the lane that it surveys. -/
theorem LanesSound.moveSurvey (h : LanesSound s) {w v : Survey} (hw : s.survey = some w) (lane : v.lane = w.lane) :
    LanesSound (s.withSurvey (some v)) := by
  have survey : (some v).map Survey.lane = s.survey.map Survey.lane := by
    rw [hw, Option.map_some, lane, Option.map_some]
  exact (h.held.relane (t := s.withSurvey (some v)) (fun _ => rfl) rfl survey rfl rfl h.held.walking h.held.lane).sound
    ⟨h.scan.driving, h.scan.idleMark, h.scan.rails⟩ h.idle

theorem State.visitRecord_survey (s : State) (w : Survey) (x : Pos) (v : Level) :
    (s.visitRecord w x v).survey = s.survey := by
  unfold State.visitRecord
  simp only
  split <;> rfl

theorem LanesSound.finishVisit (h : LanesSound s) {w : Survey} (hw : s.survey = some w) (x : Pos) (v : Level) :
    LanesSound (s.finishVisit w x v) :=
  (h.visitRecord hw x v).moveSurvey ((s.visitRecord_survey w x v).trans hw) rfl

theorem LanesSound.surveyVisit (h : LanesSound s) (part : VisitPart) : Answers (execSurveyVisit part s) LanesSound := by
  have same : Answers (.next s) LanesSound := .next h
  have granted : LanesSound (s.withLastGrant .survey) := h.congr rfl
  unfold execSurveyVisit
  split
  · rename_i w hw
    split
    · split
      · exact .next (h.finishVisit hw _ _).settle
      · exact same
    · split
      · split
        · exact .next (granted.finishVisit hw _ _).settle
        · exact .next (LanesSound.settle (granted.moveSurvey hw rfl))
      · exact same
    · exact same
  · exact same

/-- The end of a walk that claimed nothing (R109). -/
theorem LanesSound.surveyEmpty (h : LanesSound s) {w : Survey} (hw : s.survey = some w) (d : DoneRecord) (c : Prop)
    [Decidable c] (p : Port) : LanesSound
      (((if c then (s.withSurvey none).appendDone p d else s.withSurvey none).setLane w.lane Lane.rest).reconsider) := by
  have ended := h.endSurveyed hw
  split
  · rw [← State.appendDone_setLane]
    exact (ended.congr (State.appendDone_fleet _ _ _)).reconsider
  · exact ended.reconsider

/-- The lane ARMED by the end of its walk, with the supply that it calls for (R116, R150). -/
theorem LanesSound.surveyArmed (h : LanesSound s) {w : Survey} (hw : s.survey = some w)
    (frames : ((s.lane w.lane).decided w.mode).frameCount ≠ 0) : LanesSound ((s.armedBy w).raiseOnDemand) := by
  have same : (s.armedBy w).supply = s.supply := rfl
  rw [State.raiseOnDemand_armed (by simp [State.armedBy]), same]
  generalize hu : (if s.supply.state ≠ .off then s.supply else s.supply.enterRising) = u
  have powered : LanesSound (s.withSupply u) ∧ u.state ≠ .off := by
    by_cases off : s.supply.state = .off
    · rw [if_neg (not_not_intro off)] at hu
      rcases hu ▸ s.supply.enterRising_state with hr | hr <;>
      exact ⟨h.withSupply_idle (h.scan_idle (by simp [off])) (by simp [hr]) (by simp [hr]), by simp [hr]⟩
    · rw [if_pos off] at hu
      rw [← hu]
      exact ⟨h.sameSupply rfl rfl, off⟩
  have armed := LanesSound.armSurveyed (s := s.withSupply u) powered.1 hw
    (M := { (s.lane w.lane).decided w.mode with state := .armed, frameIndex := 0, abort := false }) rfl rfl
    (Nat.pos_of_ne_zero frames) powered.2
  exact armed.congr rfl

theorem LanesSound.surveyEnd (h : LanesSound s) : Answers (Machine.exec .surveyEnd s) LanesSound := by
  cases hw : s.survey with
  | none => exact ⟨s, by simp only [Machine.exec, execSurveyEnd, hw], h⟩
  | some w =>
    cases hp : w.pos with
    | some x => exact ⟨s, by simp only [Machine.exec, execSurveyEnd, hw, hp], h⟩
    | none =>
      by_cases hc : ((s.lane w.lane).decided w.mode).claimed = 0
      · rw [exec_surveyEnd_empty hw hp hc]
        exact .next (h.surveyEmpty hw _ _ _).settle
      · by_cases hf : ((s.lane w.lane).decided w.mode).frameCount = 0
        · rw [exec_surveyEnd_retired hw hp hc hf]
          have index : (((s.lane w.lane).decided w.mode).leaving .normal .completed).frameIndex = 0 :=
            ((s.lane w.lane).decided_frameIndex _).trans ((Lane.fits_survey (h.surveyed_lane hw)).1 (h.fits w.lane)).1
          refine .next (LanesSound.settle (h.retireSurveyed hw rfl ((Lane.fits_retiring rfl).2 ⟨?_, rfl, rfl⟩)))
          rw [index]
          exact Nat.zero_le _
        · rw [exec_surveyEnd_armed hw hp hc hf]
          exact .next (h.surveyArmed hw hf).settle

/-! ## The Retire Engine -/

/-- The walk goes on with the lane that it retires. -/
theorem LanesSound.moveRetire (h : LanesSound s) {w v : RetireWalk} (hw : s.retire = some w) (lane : v.lane = w.lane) :
    LanesSound (s.withRetire (some v)) :=
  { h with
    walked := by
      have walked := h.walked
      rw [hw] at walked
      rw [State.withRetire_retire, Option.map_some, lane]
      exact walked }

theorem LanesSound.retireVisit (h : LanesSound s) : Answers (execRetireVisit s) LanesSound := by
  have same : Answers (.next s) LanesSound := .next h
  unfold execRetireVisit
  split
  · rename_i w hw
    split
    · refine .next (LanesSound.settle ?_)
      split
      · refine LanesSound.moveRetire (h.congr ?_) hw ?_ <;> rfl
      · refine h.moveRetire hw ?_
        rfl
    · exact same
  · exact same

theorem LanesSound.retireWalkEnd (h : LanesSound s) : Answers (Machine.exec .retireWalkEnd s) LanesSound := by
  cases hw : s.retire with
  | none => exact ⟨s, by simp only [Machine.exec, execRetireWalkEnd, hw], h⟩
  | some w =>
    cases hp : w.pos with
    | some x => exact ⟨s, by simp only [Machine.exec, execRetireWalkEnd, hw, hp], h⟩
    | none =>
      rw [exec_retireWalkEnd_complete hw hp]
      generalize (s.lane w.lane).doneRecord ((s.lane w.lane).outcome.getD .completed) = d
      have same := (LinkOnly.reportLane s w.lane d).fleet
      have retire : (s.reportLane w.lane d).retire = s.retire := congrArg Fleet.retire same
      have retireList : (s.reportLane w.lane d).retireList = s.retireList := congrArg Fleet.retireList same
      have ended := (h.congr same).endRetired (retire.trans hw)
      rw [retireList] at ended
      exact .next ended.settle

/-! ## The power -/

theorem LanesSound.powerOn (r g : Bool) (ta tb : Transaction) (pend : List Instr) :
    LanesSound (State.powerOn r g ta tb pend) :=
  (LanesSound.reset.sameSupply (u := { State.reset.supply with railGood := g }) rfl rfl).congr rfl

theorem LanesSound.initSweepEnd (h : LanesSound s) : Answers (execInitSweepEnd s) LanesSound := by
  unfold execInitSweepEnd
  split
  · exact .next (LanesSound.settle (h.congr rfl))
  · exact .next h

/-! ## The table and the zones -/

@[simp] theorem State.sweepQueue_fleet (s : State) : s.sweepQueue.fleet = s.fleet :=
  foldl_keeps (fun t : State => t.fleet = s.fleet) _ (fun t _ ht => (t.appendDone_fleet _ _).trans ht) _ _ rfl

theorem LanesSound.validationEnd (h : LanesSound s) : Answers (execValidationEnd s) LanesSound := by
  unfold execValidationEnd
  split
  · split
    · exact .next (LanesSound.settle (LanesSound.reconsider (h.congr (by simp))))
    · exact .next (LanesSound.settle (h.congr (by simp)))
  · exact .next h

theorem LanesSound.zoneLapse (h : LanesSound s) (z : Fin 4) : Answers (execZoneLapse z s) LanesSound := by
  unfold execZoneLapse
  split
  · refine .next (LanesSound.settle (LanesSound.reconsider ?_))
    have left : LanesSound (s.leaveDoze.setZone z none) := (h.congr (LinkOnly.leaveDoze s).fleet).congr rfl
    exact left.congr (LinkOnly.raise _ _ _).fleet
  · exact .next h

/-! ## The streams -/

theorem State.placePixel_fleet (s : State) (p : Port) (v : Level) : (State.placePixel p s v).fleet = s.fleet := by
  unfold State.placePixel
  split
  · simp [State.pushEntry, State.mapContext]
  · exact (LinkOnly.ignorePixel s p).fleet

theorem LanesSound.pixelDataByte (h : LanesSound s) (p : Port) (b : Byte) :
    Answers (execPixelDataByte p b s) LanesSound := by
  unfold execPixelDataByte
  split
  · refine .next (LanesSound.settle ?_)
    split
    · exact foldl_keeps LanesSound _ (fun t v ht => ht.congr (t.placePixel_fleet p v)) _ _
        (h.congr (LinkOnly.sendResponseByte s p).fleet)
    · exact h.congr (LinkOnly.discardPixelByte s p).fleet
  · exact .next (h.congr (LinkOnly.clockUntaken s p).fleet)

theorem LanesSound.writeCode (h : LanesSound s) (p : Port) : Answers (execWritePixels p .code s) LanesSound := by
  have ho : LanesSound (s.opened p) := h.congr (LinkOnly.opened s p).fleet
  have untaken : LanesSound ((s.opened p).clockUntaken p) := ho.congr (LinkOnly.clockUntaken _ p).fleet
  refine .next ?_
  unfold State.takeCode
  simp only
  split
  · split
    · refine LanesSound.settle (LanesSound.congr ?_ (State.mapPort_fleet _ _ _))
      exact ho.congr (LinkOnly.sendResponseByte _ p).fleet
    · exact untaken
  · exact untaken

theorem LanesSound.readbackLevelRead (h : LanesSound s) (p : Port) :
    Answers (execReadbackLevelRead p s) LanesSound := by
  have same : Answers (.next s) LanesSound := .next h
  unfold execReadbackLevelRead
  split
  · split
    · split
      · exact .next (LanesSound.settle ((LanesSound.congr h rfl).congr (State.mapPort_fleet _ _ _)))
      · exact same
    · exact same
  · exact same

theorem LanesSound.drainPixelEntry (h : LanesSound s) (p : Port) : Answers (execDrainPixelEntry p s) LanesSound := by
  have same : Answers (.next s) LanesSound := .next h
  unfold execDrainPixelEntry
  split
  · split
    · exact .next (LanesSound.settle ((LanesSound.congr h rfl).congr (State.mapPort_fleet _ _ _)))
    · exact same
  · exact same

theorem LanesSound.drainFillPixel (h : LanesSound s) (p : Port) : Answers (execDrainFillPixel p s) LanesSound := by
  have same : Answers (.next s) LanesSound := .next h
  unfold execDrainFillPixel
  split
  · split
    · exact .next (LanesSound.settle ((LanesSound.congr h rfl).congr (State.mapPort_fleet _ _ _)))
    · exact same
  · exact same

theorem LanesSound.drainSubmitEntry (h : LanesSound s) (p : Port) : Answers (execDrainSubmitEntry p s) LanesSound := by
  unfold execDrainSubmitEntry
  split
  · refine .next (LanesSound.settle ?_)
    have popped := fun f => h.congr (State.mapPort_fleet s p f)
    unfold State.enterQueue
    split
    · exact (popped _).congr (State.appendDone_fleet _ _ _)
    · exact LanesSound.reconsider (LanesSound.congr (popped _) rfl)
  · exact .next h

end Sys2Proof.Machine
end

section
/-! The effects of the commands (R14, R95, R110, R111, R124 to R127, R147, R160, R179, R180): each keeps the lanes,
their lists, the engines, the scan and the supply in agreement.
-/

namespace Sys2Proof.Machine

variable {s : State}

/-! ## The resets -/

/-- The lanes of `mine` end or abort, and the others stand (R14, R114, R127). -/
theorem LanesHeld.ended {t : State} (h : LanesHeld s) (mine : Port → Bool)
    (lane : ∀ l, t.lane l = if s.ownedBy mine l then endedLane s (s.lane l) else s.lane l)
    (surveyList : t.surveyList = s.surveyList.filter fun l => !s.ownedBy mine l)
    (survey : t.survey = if s.survey.any fun w => s.ownedBy mine w.lane then none else s.survey)
    (armingList : t.armingList = s.armingList.filter fun l => !s.ownedBy mine l)
    (retireList : t.retireList = s.retireList ++ s.releasedBy mine) (retire : t.retire = s.retire)
    (scan : t.scan = s.scan) (supply : t.supply = s.supply) : LanesHeld t := by
  have leaves (st : LaneState) (hst : st = .pending ∨ st = .survey ∨ st = .armed) (l : LaneId) :
      (t.lane l).state = st ↔ (s.lane l).state = st ∧ (!s.ownedBy mine l) = true := by
    rw [lane]
    cases s.ownedBy mine l with
    | false => simp
    | true =>
      unfold endedLane
      rcases hst with rfl | rfl | rfl <;> cases hs : (s.lane l).state <;> simp [hs, Lane.rest]
  have joins (l : LaneId) : (t.lane l).state = .retiring ↔ (s.lane l).state = .retiring ∨ l ∈ s.releasedBy mine := by
    rw [lane, s.mem_releasedBy]
    cases hm : s.ownedBy mine l with
    | false => simp
    | true =>
      unfold endedLane
      cases hs : (s.lane l).state <;> simp [hs, Lane.rest]
  have surveyed : (t.survey.map Survey.lane).toList =
      (s.survey.map Survey.lane).toList.filter fun l => !s.ownedBy mine l := by
    rw [survey]
    cases s.survey with
    | none => rfl
    | some w => cases hm : s.ownedBy mine w.lane <;> simp [hm]
  refine ⟨fun l => ?_, surveyList ▸ h.pending.filter _ (leaves .pending (.inl rfl)),
    surveyed ▸ h.surveyed.filter _ (leaves .survey (.inr (.inl rfl))),
    armingList ▸ h.armed.filter _ (leaves .armed (.inr (.inr rfl))),
    retireList ▸ h.retiring.append (s.releasedBy_nodup mine) (fun l hl => ?_) joins, fun w hw => ?_⟩
  · rw [lane, scan, supply]
    split
    · have fits := h.lane l
      cases hst : (s.lane l).state with
      | free => rw [endedLane, hst]; exact fits
      | pending => rw [endedLane, hst]; exact (Lane.fits_free rfl).2 rfl
      | survey =>
        rw [endedLane_survey s _ hst]
        have index : (({ s.decidedBy (s.lane l) with report := false } : Lane).leaving .release
            .withdrawn).frameIndex = 0 := (s.decidedBy_frameIndex _).trans (h.unstarted (by simp [hst]) (by simp [hst]))
        exact (Lane.fits_retiring rfl).2 ⟨by rw [index]; exact Nat.zero_le _, rfl, rfl⟩
      | armed =>
        have index : (s.lane l).frameIndex ≤ (s.lane l).frameCount := by
          rw [(h.armedLane hst).1]
          exact Nat.zero_le _
        rw [endedLane, hst]
        exact (Lane.fits_retiring rfl).2 ⟨index, rfl, rfl⟩
      | running => rw [endedLane, hst]; exact fits.alike (by simp [hst]) hst.symm rfl rfl rfl rfl rfl
      | retiring => rw [endedLane, hst]; exact fits.alike (by simp [hst]) hst.symm rfl rfl rfl rfl rfl
    · exact h.lane l
  · obtain ⟨-, hst⟩ := (s.mem_releasedBy mine l).1 hl
    rcases hst with hst | hst <;> rw [hst] <;> decide
  · rw [retireList, List.head?_append, h.walking w (retire ▸ hw)]
    rfl

theorem LanesSound.endLanes (h : LanesSound s) (mine : Port → Bool) : LanesSound (s.endLanes mine) := by
  obtain ⟨v, e, hv⟩ := s.endLanes_eq h mine
  generalize hr : ((((s.withLanes v).withSurveyList (s.surveyList.filter fun l => !s.ownedBy mine l)).withSurvey
      (if s.survey.any fun w => s.ownedBy mine w.lane then none else s.survey)).withArmingList
      (s.armingList.filter fun l => !s.ownedBy mine l)).withRetireList (s.retireList ++ s.releasedBy mine) = t at e
  have lane (l : LaneId) : t.lane l = if s.ownedBy mine l then endedLane s (s.lane l) else s.lane l := by
    rw [← hv l, ← hr]
    simp
  have held : LanesHeld t := by
    refine h.held.ended mine lane ?_ ?_ ?_ ?_ ?_ ?_ ?_ <;> rw [← hr] <;> simp
  have scan : t.scan = s.scan := by rw [← hr]; simp
  have supply : t.supply = s.supply := by rw [← hr]; simp
  rw [e]
  refine held.startRetire ⟨fun hs => ?_, scan ▸ h.idleMark, scan ▸ supply ▸ h.rails⟩
  obtain ⟨l, hl⟩ := h.scan.driving (scan ▸ hs)
  refine ⟨l, ?_⟩
  rw [lane]
  split
  · rw [endedLane, hl]
  · exact hl

theorem LanesSound.endOwned (h : LanesSound s) (mine : Port → Bool) (q : List Request) :
    LanesSound (s.endOwned mine q) := by
  obtain ⟨v, e, -⟩ := s.endOwned_eq mine q
  rw [e]
  refine (h.endLanes mine).congr ?_
  rw [State.withZones_fleet, State.withQueue_fleet]

theorem LanesSound.portReset (h : LanesSound s) (p : Port) (req : List Byte) :
    LanesSound (effectPortReset p req s) := by
  rw [effectPortReset_eq]
  have ended := h.endOwned (fun q => decide (q = p)) ((s.endLanes fun q => decide (q = p)).queue.filter
    fun q => !decide (q.port = p))
  refine LanesSound.reconsider (ended.congr ?_)
  rw [State.mapPort_fleet, State.withTable_fleet]

/-- A PART_RESET leaves no supply HALTED (R160). -/
theorem Supply.partReset_ne_halted (u : Supply) (scanning : Bool) : (u.partReset scanning).state ≠ .halted := by
  rw [Supply.partReset]
  split
  · rename_i off
    simp [off]
  · simp [Supply.enterFalling]
  · rename_i on
    split
    · simp [on]
    · simp [Supply.enterFalling]
  · rename_i falling
    simp [falling]
  · rename_i tripped
    simp [tripped]
  · split <;> simp

/-- Under a scan a PART_RESET leaves the supply ON, to wind down at the scan's end (R160). -/
theorem Supply.partReset_on {u : Supply} (on : u.state = .on) :
    (u.partReset true).state = .on ∧ (u.partReset true).parkTimer = u.parkTimer := by
  simp [Supply.partReset, on]

/-- No lane is ARMED when the settings take their reset values (R160, R180). -/
theorem LanesSound.resetSettings (h : LanesSound s) (armed : s.armingList = []) : LanesSound s.resetSettings := by
  have supplied : LanesSound (s.withSupply (s.supply.partReset s.scan.scanning)) :=
    h.withSupply (fun _ => armed) (fun hu => absurd hu (Supply.partReset_ne_halted _ _)) fun hs => by
      obtain ⟨on, park⟩ := h.rails hs
      obtain ⟨on', park'⟩ := Supply.partReset_on on
      rw [hs]
      exact ⟨on', park'.trans park⟩
  have scanned := supplied.withScan (c := s.scan.partReset)
    (by unfold Scanner.partReset; split <;> rfl) (by unfold Scanner.partReset; split <;> rfl)
    (by unfold Scanner.partReset; split <;> simp_all)
  refine scanned.congr ?_
  rw [State.resetSettings_eq]
  simp only [State.fleet, State.withScan, State.withSupply]

theorem LanesSound.partReset (h : LanesSound s) (p : Port) (req : List Byte) :
    LanesSound (effectPartReset p req s) := by
  rw [effectPartReset_eq]
  obtain ⟨v, r, z, e, -⟩ := s.endAll_whole h
  have ended := h.endOwned (fun _ => true) []
  have settled := ended.resetSettings (by rw [e])
  refine LanesSound.reconsider (settled.congr ?_)
  simp [State.mapPorts]

/-! ## Withdrawals -/

theorem LanesSound.withdrawLane (h : LanesSound s) (p : Port) (l : LaneId) : LanesSound (s.withdrawLane p l) := by
  have answered {t : State} (ht : LanesSound t) (r : Result) : LanesSound (t.setResult p r) :=
    ht.congr (t.setResult_fleet p r)
  unfold State.withdrawLane
  split
  · rename_i hst
    exact answered (h.endPending _ hst).reconsider _
  · rename_i hst
    obtain ⟨w, hw, rfl⟩ := Option.map_eq_some_iff.1 ((h.surveyed l).2 hst)
    rw [State.joinRetire_closeSurvey hw]
    have index : ((s.lane w.lane).decided w.mode).frameIndex = 0 :=
      ((s.lane w.lane).decided_frameIndex _).trans (h.held.unstarted (by simp [hst]) (by simp [hst]))
    refine answered (h.retireSurveyed hw rfl ((Lane.fits_retiring rfl).2 ⟨?_, rfl, rfl⟩)) _
    exact le_of_eq_of_le index (Nat.zero_le _)
  · rename_i hst
    exact answered (h.releaseArmed hst _) _
  · rename_i hst
    rw [State.mapLane_eq]
    refine answered (h.setLane ?_ ((h.fits l).alike (by simp [hst]) ?_ ?_ ?_ ?_ ?_ ?_)) _ <;> rfl
  · exact answered h _
  · exact answered h _

theorem LanesSound.withdraw (h : LanesSound s) (p : Port) (req : List Byte) : LanesSound (effectWithdraw p req s) := by
  unfold effectWithdraw
  simp only
  split
  · exact h.congr (by simp)
  · split
    · exact h.congr (by simp)
    · split
      · refine LanesSound.congr (LanesSound.reconsider (LanesSound.congr (s := s.withQueue _) (h.congr rfl) ?_))
          (State.setResult_fleet _ _ _)
        exact State.appendDone_fleet _ _ _
      · split
        · exact h.withdrawLane p _
        · exact h.congr (by simp)

/-! ## The other effects -/

theorem LanesSound.setFrameMark (h : LanesSound s) (p : Port) (req : List Byte) :
    LanesSound (effectSetFrameMark p req s) := by
  unfold effectSetFrameMark
  refine LanesSound.congr (h.withScan ?_ ?_ ?_) (State.setResult_fleet _ _ _)
  · split <;> rfl
  · split <;> rfl
  · split <;> simp_all

theorem LanesSound.setGeometry (h : LanesSound s) (p : Port) (req : List Byte) :
    LanesSound (effectSetGeometry p req s) := by
  unfold effectSetGeometry
  simp only
  split
  · exact h.congr (by simp)
  · split
    · exact h.congr (by simp)
    · refine LanesSound.congr (LanesSound.withScan (s := (s.withGeometry _ _).withPower _) (h.congr rfl) ?_ ?_ ?_)
        (State.setResult_fleet _ _ _)
      · rfl
      · rfl
      · exact fun _ => rfl

theorem LanesSound.releaseZone (h : LanesSound s) (p : Port) (req : List Byte) :
    LanesSound (effectReleaseZone p req s) := by
  unfold effectReleaseZone
  split
  · exact h.congr (by simp)
  · split
    · exact h.congr (by simp)
    · split
      · refine LanesSound.congr (LanesSound.reconsider (h.congr ?_)) (State.setResult_fleet _ _ _)
        rfl
      · exact h.congr (by simp)

end Sys2Proof.Machine
end

section
/-! O56: every effect and every event keeps the lanes, their lists, the engines, the scan and the supply in agreement.
-/

namespace Sys2Proof.Machine

variable {s : State}

/-! ## Effects on no lane -/

section

variable (s : State) (p : Port) (req : List Byte)

theorem effectSetWindow_fleet : (effectSetWindow p req s).fleet = s.fleet := by
  unfold effectSetWindow
  simp only
  split <;> simp

theorem effectSetFormat_fleet : (effectSetFormat p req s).fleet = s.fleet := by
  unfold effectSetFormat
  split <;> simp

theorem effectSetOrientation_fleet : (effectSetOrientation p req s).fleet = s.fleet := by
  unfold effectSetOrientation
  split <;> simp

theorem effectFillWindow_fleet : (effectFillWindow p req s).fleet = s.fleet := by
  unfold effectFillWindow
  split
  · split <;> simp
  · simp

/-- A SUBMIT puts its request into the stream: no lane is taken before the queue (R72, R77). -/
theorem effectSubmitUpdate_fleet : (effectSubmitUpdate p req s).fleet = s.fleet := by
  unfold effectSubmitUpdate
  split
  · simp
  · simp only
    split
    · simp
    · split
      · simp
      · split <;> simp

theorem effectReserveZone_fleet : (effectReserveZone p req s).fleet = s.fleet := by
  unfold effectReserveZone
  simp only
  split
  · simp
  · split
    · simp
    · split <;> simp

theorem effectTableBegin_fleet : (effectTableBegin p req s).fleet = s.fleet := by
  unfold effectTableBegin
  simp only
  split
  · simp
  · split
    · split <;> simp
    · simp
    · simp

theorem effectTableData_fleet : (effectTableData p req s).fleet = s.fleet := by
  unfold effectTableData
  split
  · split
    · split <;> simp
    · simp
  · simp

theorem effectTableEnd_fleet : (effectTableEnd p req s).fleet = s.fleet := by
  unfold effectTableEnd
  split
  · split <;> simp
  · simp

theorem effectTableAbort_fleet : (effectTableAbort p req s).fleet = s.fleet := by
  unfold effectTableAbort
  split
  · simp only [State.setResult_fleet]
    split <;> simp
  · simp

theorem effectSetEventEnable_fleet : (effectSetEventEnable p req s).fleet = s.fleet := by
  unfold effectSetEventEnable
  simp only
  split <;> simp

theorem effectGetDone_fleet : (effectGetDone p req s).fleet = s.fleet := by
  unfold effectGetDone
  split <;> simp

theorem effectGetPixel_fleet : (effectGetPixel p req s).fleet = s.fleet := by
  unfold effectGetPixel
  simp only
  split <;> simp

end

/-! ## Every effect -/

/-- SET_TIMERS sets durations; timers that run, and the supply's state, stand (R91). -/
theorem LanesSound.setTimers (h : LanesSound s) (p : Port) (req : List Byte) :
    LanesSound (effectSetTimers p req s) := by
  have timed := h.sameSupply (u := { s.supply with
    parkDuration := clampNat 0 10000 (reqWord req 0), riseDuration := clampNat 1 255 (reqWord req 2)
    fallDuration := clampNat 1 255 (reqWord req 4) }) rfl rfl
  refine timed.congr ?_
  unfold effectSetTimers
  simp

/-- Every effect of a command keeps the lanes sound. -/
theorem LanesSound.effect (h : LanesSound s) (i : Instr) : LanesSound (effectOf i s) := by
  cases i with
  | withdraw p r => exact h.withdraw p r
  | releaseZone p r => exact h.releaseZone p r
  | setGeometry p r => exact h.setGeometry p r
  | setFrameMark p r => exact h.setFrameMark p r
  | setTimers p r => exact h.setTimers p r
  | portReset p r => exact h.portReset p r
  | partReset p r => exact h.partReset p r
  | setWindow p r => exact h.congr (effectSetWindow_fleet s p r)
  | setFormat p r => exact h.congr (effectSetFormat_fleet s p r)
  | setOrientation p r => exact h.congr (effectSetOrientation_fleet s p r)
  | fillWindow p r => exact h.congr (effectFillWindow_fleet s p r)
  | submitUpdate p r => exact h.congr (effectSubmitUpdate_fleet s p r)
  | reserveZone p r => exact h.congr (effectReserveZone_fleet s p r)
  | reportTemperature p r => exact h.congr (State.setResult_fleet _ p _)
  | tableBegin p r => exact h.congr (effectTableBegin_fleet s p r)
  | tableData p r => exact h.congr (effectTableData_fleet s p r)
  | tableEnd p r => exact h.congr (effectTableEnd_fleet s p r)
  | tableAbort p r => exact h.congr (effectTableAbort_fleet s p r)
  | setLimits p r => exact h.congr (State.setResult_fleet _ p _)
  | setEventEnable p r => exact h.congr (effectSetEventEnable_fleet s p r)
  | sleep p r => exact h.congr ((State.setResult_fleet _ p _).trans (s.mapPort_fleet p _))
  | getDone p r => exact h.congr (effectGetDone_fleet s p r)
  | getPixel p r => exact h.congr (effectGetPixel_fleet s p r)
  | getTableInfo p r => exact h.congr (s.answer_fleet p _ _)
  | getEvents p r => exact h.congr (s.answer_fleet p _ _)
  | getResult p r => exact h.congr (s.answer_fleet p _ _)
  | getStatus p r => exact h.congr (s.answer_fleet p _ _)
  | getScan p r => exact h.congr (s.answer_fleet p _ _)
  | getId p r => exact h.congr (s.answer_fleet p _ _)
  | _ => exact h

/-! ## Commands, and the end of a geometry sweep -/

/-- A command of the link keeps the lanes sound, whatever its transaction comes to. -/
theorem LanesSound.request (h : LanesSound s) {i : Instr} {p : Port} {req : List Byte} {more : Bool} {n : Nat}
    (hr : requestOf i = some (p, req, more, n)) : Answers (exec i s) LanesSound := by
  refine ⟨_, exec_request hr s, LanesSound.settle ?_⟩
  rcases s.transact_cases p (if more then .query n else .fixed n) req i (effectOf i) with hk | ⟨-, -, -, he⟩
  · exact h.ofLink hk
  · rw [he]
    exact (h.ofLink (LinkOnly.risen s p (req.length + 1))).effect i

theorem LanesSound.takeHeld (h : LanesSound s) (p : Port) (x : Held) : LanesSound (State.takeHeld p s x) := by
  cases x with
  | command i => exact h.effect i
  | writeEnd r => exact h.ofLink (.takeHeld p s _ (by simp))
  | untaken => exact h.ofLink (.takeHeld p s _ (by simp))

theorem LanesSound.applyHeld (h : LanesSound s) (p : Port) : LanesSound (s.applyHeld p) := by
  unfold State.applyHeld
  split
  · exact h
  · exact foldl_keeps LanesSound _ (fun t x ht => ht.takeHeld p x) _ _ (h.congr (State.mapPort_fleet _ _ _))

theorem State.sweptGeometry_fleet (s : State) : s.sweptGeometry.fleet = s.fleet := rfl

theorem LanesSound.geometrySweepEnd (h : LanesSound s) : Answers (execGeometrySweepEnd s) LanesSound := by
  unfold execGeometrySweepEnd
  split
  · exact .next (((h.congr s.sweptGeometry_fleet).applyHeld .a).applyHeld .b).settle
  · exact .next h

/-! ## Every event -/

/-- Every command that a state with sound lanes takes leaves them sound. -/
theorem LanesSound.exec (h : LanesSound s) (i : Instr) : Answers (Machine.exec i s) LanesSound := by
  by_cases hl : isLinkEvent i = true
  · exact (exec_linkEvent i s hl).imp fun t => h.ofLink
  cases hr : requestOf i with
  | some r => exact h.request (i := i) hr
  | none =>
  cases i with
  | powerOnReset r => exact ⟨_, rfl, .powerOn ..⟩
  | initSweepEnd => exact h.initSweepEnd
  | writePixels p ph =>
    cases ph with
    | rise => exact absurd rfl hl
    | code => exact h.writeCode p
  | pixelDataByte p b => exact h.pixelDataByte p b
  | readbackLevelRead p => exact h.readbackLevelRead p
  | validationEnd => exact h.validationEnd
  | geometrySweepEnd => exact h.geometrySweepEnd
  | drainPixelEntry p => exact h.drainPixelEntry p
  | drainFillPixel p => exact h.drainFillPixel p
  | drainSubmitEntry p => exact h.drainSubmitEntry p
  | surveyStart => exact h.surveyStarted
  | surveyVisit part => exact h.surveyVisit part
  | surveyEnd => exact h.surveyEnd
  | scanStart => exact h.scanStart
  | frameRow n => exact h.frameRow n
  | frameBoundary => exact h.frameBoundary
  | retireVisit => exact h.retireVisit
  | retireWalkEnd => exact h.retireWalkEnd
  | railGoodAsserted => exact h.railGoodAsserted
  | railLost => exact h.railLost
  | riseTimeout => exact h.riseTimeout
  | parkTimerExpiry => exact h.parkTimerExpiry
  | fallTimerExpiry => exact h.fallTimerExpiry
  | zoneLapse z => exact h.zoneLapse z
  | _ => simp [isLinkEvent, requestOf] at hl hr

/-- Settles O56: by what each command does to the lanes' places; the queue of waiting commands holds no lane. -/
theorem stepKeepsLanes : Obligations.StepKeepsLanes := fun s t h hs =>
  step_keeps LanesSound (fun _ _ h => h.congr rfl) (fun _ _ i h he => (h.exec i).elim he) s t h hs

end Sys2Proof.Machine
end

section
/-! The start of a scan, the frame boundary and a trip (R117, R118, R121, R123, R136, R137, R141, R142, R151, R153): what
each makes of every lane, and O45, O47 and O52.
-/

namespace Sys2Proof.Machine

/-! ## Lanes that enter RUNNING -/

/-- A change that a second one leaves as it is, made to every lane of a list, which may repeat its lanes. -/
theorem State.foldl_mapLane_idempotent (f : Lane → Lane) (idem : ∀ r, f (f r) = f r) (ls : List LaneId) (s : State) :
    ∃ v : Vector Lane 15, ls.foldl (fun t l => t.mapLane l f) s = s.withLanes v ∧
      ∀ l, (s.withLanes v).lane l = if l ∈ ls then f (s.lane l) else s.lane l := by
  induction ls generalizing s with
  | nil => exact ⟨s.lanes, rfl, fun l => rfl⟩
  | cons a ls ih =>
    obtain ⟨v, e, hv⟩ := ih (s.mapLane a f)
    refine ⟨v, e, fun l => (hv l).trans ?_⟩
    by_cases hl : l = a <;> simp [hl, idem]

/-- The lanes of a list run from frame index 0 and leave the arming list, whatever the list repeats (R117, R118). -/
theorem State.admitLane_lanes (s : State) (ls : List LaneId) : ∃ v : Vector Lane 15,
    s.admitLane ls = (s.withLanes v).withArmingList (s.armingList.filter fun l => !ls.contains l) ∧
      ∀ l, (s.withLanes v).lane l =
        if l ∈ ls then { s.lane l with state := .running, frameIndex := 0 } else s.lane l := by
  obtain ⟨v, e, hv⟩ := s.foldl_mapLane_idempotent (fun r => { r with state := .running, frameIndex := 0 })
    (fun _ => rfl) ls
  exact ⟨v, by rw [State.admitLane, e], hv⟩

/-- A frame begins at row 0, and its first row gives the pulse of a frame-mark row 0 (R137, R141, R143). -/
theorem Scanner.beginFrame_eq (c : Scanner) : c.beginFrame =
    { c with
      row := some 0, walkRow := 0, walkCol := 0, markRow := c.pendingMark.getD c.markRow, pendingMark := none
      markPulses := c.markPulses + if c.pendingMark.getD c.markRow = 0 then 1 else 0 } := by
  unfold Scanner.beginFrame
  simp only
  split <;> rfl

/-- Settles O45: the lanes of the head's band are those admitted, and the ones that stay ARMED are of another. -/
theorem scanStart : Obligations.ScanStart := by
  intro s h rest head on idle band mark
  obtain ⟨v, e, hv⟩ := s.admitLane_lanes (s.armingList.filter fun l => decide ((s.lane l).band = band))
  refine ⟨v, fun l => by rw [hv l]; simp only [List.mem_filter, decide_eq_true_eq], ?_⟩
  have others : (s.armingList.filter fun l =>
      !(s.armingList.filter fun l => decide ((s.lane l).band = band)).contains l) =
      s.armingList.filter fun l => decide ((s.lane l).band ≠ band) :=
    List.filter_congr fun l hl => by simp [hl]
  have started : exec .scanStart s = execScanStart s := rfl
  rw [started, execScanStart, head]
  simp only
  rw [if_pos ⟨on, idle⟩, ← head, e, others, Scanner.beginFrame_eq]
  rfl

/-! ## Lanes that advance -/

/-- The frame taken is the lane's last: it aborts, or its frame count is reached (R121). -/
def Lane.frameIsLast (L : Lane) : Bool := L.abort || decide (L.frameIndex + 1 = L.frameCount)

/-- A RUNNING lane after a boundary: one more frame is behind it, and after its last it retires (R121). -/
def Lane.pastFrame (L : Lane) : Lane :=
  if L.abort then L.advanced.leaving .partialDrive .withdrawn
  else if L.frameIndex + 1 = L.frameCount then L.advanced.leaving .normal .completed
  else L.advanced

theorem State.advanceLane_pastFrame (s : State) (l : LaneId) : s.advanceLane l =
    (s.setLane l (s.lane l).pastFrame).withRetireList
      (s.retireList ++ if (s.lane l).frameIsLast then [l] else []) := by
  rw [State.advanceLane_eq, Lane.pastFrame, Lane.frameIsLast]
  by_cases aborts : (s.lane l).abort = true
  · simp [aborts]
  · by_cases done : (s.lane l).frameIndex + 1 = (s.lane l).frameCount
    · simp [aborts, done]
    · simp [aborts, done, State.withRetireList, State.setLane, State.withLanes]

/-- A lane past its frame still runs exactly when that frame was not its last (R121). -/
theorem Lane.pastFrame_running {L : Lane} (h : L.state = .running) :
    L.pastFrame.state = .running ↔ ¬ (L.abort = true ∨ L.frameIndex + 1 = L.frameCount) := by
  unfold Lane.pastFrame
  split
  · rename_i aborts
    simp [aborts, Lane.leaving]
  · rename_i stays
    split
    · rename_i done
      simp [done, Lane.leaving]
    · rename_i more
      simp [stays, more, Lane.advanced, h]

/-- Lanes of a list without repeats advance one after another (R121). -/
theorem State.foldl_advanceLane (ls : List LaneId) (s : State) (once : ls.Nodup) : ∃ v : Vector Lane 15,
    ls.foldl State.advanceLane s =
        (s.withLanes v).withRetireList (s.retireList ++ ls.filter fun l => (s.lane l).frameIsLast) ∧
      ∀ l, (s.withLanes v).lane l = if l ∈ ls then (s.lane l).pastFrame else s.lane l := by
  induction ls generalizing s with
  | nil => exact ⟨s.lanes, by rw [List.filter_nil, List.append_nil]; rfl, fun l => rfl⟩
  | cons a ls ih =>
    obtain ⟨ha, once⟩ := List.nodup_cons.1 once
    obtain ⟨v, e, hv⟩ := ih (s.advanceLane a) once
    have later : ls.filter (fun l => ((s.advanceLane a).lane l).frameIsLast) =
        ls.filter fun l => (s.lane l).frameIsLast :=
      List.filter_congr fun l hl => by
        rw [s.advanceLane_other (ne_of_mem_of_not_mem hl ha)]
    have joined : (s.advanceLane a).retireList ++ ls.filter (fun l => (s.lane l).frameIsLast) =
        s.retireList ++ (a :: ls).filter fun l => (s.lane l).frameIsLast := by
      rw [State.advanceLane_pastFrame, State.withRetireList_retireList, List.append_assoc, List.filter_cons]
      split <;> rfl
    refine ⟨v, ?_, fun l => (hv l).trans ?_⟩
    · rw [List.foldl_cons, e, later, joined, State.advanceLane_pastFrame]
      rfl
    · by_cases hl : l = a
      · subst hl
        simp [ha, State.advanceLane_pastFrame]
      · simp [hl, s.advanceLane_other hl]

/-- Every RUNNING lane advances, and those whose last frame it was retire in lane number order (R121). -/
theorem State.advance_eq (s : State) : ∃ v : Vector Lane 15,
    s.advance = (s.withLanes v).withRetireList
        (s.retireList ++ (s.lanesIn .running).filter fun l => (s.lane l).frameIsLast) ∧
      ∀ l, (s.withLanes v).lane l = if (s.lane l).state = .running then (s.lane l).pastFrame else s.lane l := by
  obtain ⟨v, e, hv⟩ := State.foldl_advanceLane (s.lanesIn .running) s (s.lanesIn_nodup _)
  exact ⟨v, e, fun l => by rw [hv l]; simp only [s.mem_lanesIn]⟩

theorem State.advance_lane (s : State) (l : LaneId) :
    s.advance.lane l = if (s.lane l).state = .running then (s.lane l).pastFrame else s.lane l := by
  obtain ⟨v, e, hv⟩ := s.advance_eq
  rw [← hv l, e]
  rfl

/-- No lane runs on after a boundary exactly when the frame was the last of every RUNNING lane (R121, R142). -/
theorem State.advance_none_running (s : State) : (s.advance.lanesIn .running).isEmpty = true ↔
    ∀ l, (s.lane l).state = .running → (s.lane l).abort = true ∨ (s.lane l).frameIndex + 1 = (s.lane l).frameCount := by
  have runs (l : LaneId) : (s.advance.lane l).state = .running ↔ (s.lane l).state = .running ∧
      ¬ ((s.lane l).abort = true ∨ (s.lane l).frameIndex + 1 = (s.lane l).frameCount) := by
    rw [State.advance_lane]
    split
    · rename_i running
      rw [Lane.pastFrame_running running, and_iff_right running]
    · rename_i stands
      exact ⟨fun he => absurd he stands, fun he => absurd he.1 stands⟩
  rw [List.isEmpty_iff, List.eq_nil_iff_forall_not_mem]
  simp only [State.mem_lanesIn, runs, not_and, not_not]

/-- Advancing changes no lane's band (R119, R121). -/
theorem State.advance_band (s : State) (l : LaneId) : (s.advance.lane l).band = (s.lane l).band := by
  rw [State.advance_lane, Lane.pastFrame]
  split_ifs <;> rfl

/-! ## The boundary of a frame that has taken every row -/

/-- A walk that visits nothing changes nothing (R138 to R140). -/
theorem State.drive_nothing {s : State} {visits : Pos → Bool} (none_left : ∀ x, visits x = false)
    (saturated : ∀ l, (s.lane l).saturated ≤ 65535) : s.drive visits = s := by
  obtain ⟨v, e, hv⟩ := s.drive_eq visits
  have lanes : v = s.lanes := Vector.ext fun i hi => by
    have noClips : s.clips visits ⟨i, hi⟩ = 0 := List.countP_eq_zero.2 fun c _ => by simp [none_left]
    have same := hv ⟨i, hi⟩
    rw [noClips, Nat.add_zero, min_eq_right (saturated _)] at same
    exact same
  rw [e, lanes]
  simp only [none_left, Bool.false_eq_true, if_false, Prod.mk.eta, List.map_id']
  rfl

/-- The walk of the frame has taken every row, its boundary row among them (R138, R143). -/
theorem State.finishFrame_whole {s : State} (whole : s.height ≤ s.scan.walkRow)
    (saturated : ∀ l, (s.lane l).saturated ≤ 65535) : s.finishFrame = s := by
  have none_left (x : Pos) : s.unvisited x = false := by
    simp only [State.unvisited, Bool.and_eq_false_iff, Bool.or_eq_false_iff, decide_eq_false_iff_not]
    omega
  have marked : s.scan.markAhead s.height = false := by
    simp only [Scanner.markAhead, Bool.and_eq_false_iff, Bool.or_eq_false_iff, decide_eq_false_iff_not]
    omega
  unfold State.finishFrame
  simp only [State.drive_nothing none_left saturated, marked]
  rfl

/-- A frame has been taken: the counter rises and the recovery mark clears (R141, R155). -/
def State.frameTaken (s : State) : State :=
  (s.withScan { s.scan with counter := (s.scan.counter + 1) % 65536 }).withSupply { s.supply with recovery := false }

theorem exec_frameBoundary_whole {s : State} (on : s.scan.scanning = true) (whole : s.height ≤ s.scan.walkRow)
    (saturated : ∀ l, (s.lane l).saturated ≤ 65535) : exec .frameBoundary s =
      .next (if (s.frameTaken.advance.lanesIn .running).isEmpty then s.frameTaken.advance.endScan
        else (s.frameTaken.advance.admitLane s.frameTaken.advance.admissible).withScan
          (s.frameTaken.advance.admitLane s.frameTaken.advance.admissible).scan.beginFrame).startRetire.settle := by
  have boundary : exec .frameBoundary s = execFrameBoundary s := rfl
  rw [boundary, execFrameBoundary, if_pos on]
  simp only [State.finishFrame_whole whole saturated]
  rfl

/-- The lanes that a boundary admits are judged by bands that no advance changes (R117). -/
theorem State.advance_admissible (s : State) : s.advance.admissible = s.admissible := by
  simp only [State.admissible, State.advance_armingList, State.advance_band, (LaneOnly.advance s).scan]

/-- Settles O47: with a lane that runs on, the lanes admitted join it in the next frame; with none the scan is IDLE. -/
theorem frameBoundary : Obligations.FrameBoundary := by
  intro s on whole saturated running ends advanced retired admitted mark counter
  obtain ⟨v, e, hv⟩ := s.frameTaken.advance_eq
  have lane (l : LaneId) : (s.withLanes v).lane l = advanced l := by
    refine (hv l).trans ?_
    have same : s.frameTaken.lane l = s.lane l := rfl
    simp only [same, advanced, ite_not]
    rfl
  have retires : (s.frameTaken.lanesIn .running).filter (fun l => (s.frameTaken.lane l).frameIsLast) = retired := by
    rw [State.lanesIn, List.filter_filter]
    exact List.filter_congr fun l _ => Bool.and_comm _ _
  rw [retires] at e
  rw [exec_frameBoundary_whole on whole saturated]
  by_cases allEnd : ∀ l, running l → ends l
  · refine ⟨v, fun ⟨l, runs, more⟩ => absurd (allEnd l runs) more, fun _ => ⟨lane, ?_⟩⟩
    rw [if_pos (s.frameTaken.advance_none_running.2 allEnd), e]
    rfl
  · obtain ⟨u, admits, hu⟩ := s.frameTaken.advance.admitLane_lanes admitted
    refine ⟨u, fun _ => ⟨fun l => ?_, ?_⟩, fun all => absurd all allEnd⟩
    · have before : s.frameTaken.advance.lane l = advanced l := by rw [← lane l, e]; rfl
      rw [← before]
      exact hu l
    · have admissible : s.frameTaken.advance.admissible = admitted := s.frameTaken.advance_admissible
      rw [if_neg fun none_left => allEnd (s.frameTaken.advance_none_running.1 none_left), admissible, admits, e,
        Scanner.beginFrame_eq]
      rfl

/-! ## A trip that finds the recovery mark clear -/

/-- A trip that finds the recovery mark clear leaves the supply TRIPPED (R153). -/
theorem Supply.trip_unmarked {u : Supply} (h : u.recovery = false) (cause : TripCause) : u.trip cause =
    { u with state := .tripped, cause := cause, riseTimer := none, parkTimer := none, windDown := false
             fallTimer := some u.fallDuration, recovery := true } := by
  rw [Supply.trip, h]; rfl

/-- A trip that finds the recovery mark clear ends the RUNNING lanes alone (R123, R142, R153). -/
theorem State.trip_unmarked {s : State} (recovery : s.supply.recovery = false) (cause : TripCause) :
    ∃ v : Vector Lane 15,
      s.trip cause = ((((((s.withLanes v).withRetireList (s.retireList ++ s.lanesIn .running)).withScan
        s.scan.toIdle).withSupply (s.supply.trip cause)).raiseBoth .supplyFault).startRetire) ∧
      ∀ l, (s.withLanes v).lane l =
        if (s.lane l).state = .running then (s.lane l).leaving .fault .faulted else s.lane l := by
  obtain ⟨v, e, hv⟩ := (s.withSupply (s.supply.trip cause)).faultRunning_eq
  refine ⟨v, ?_, hv⟩
  unfold State.trip
  simp only [e, recovery]
  rfl

/-- Settles O52: both causes trip alike, and differ in the level of RAIL_GOOD that they find. -/
theorem trip : Obligations.Trip := by
  intro s i cause good hi recovery running mark
  obtain ⟨v, e, hv⟩ := State.trip_unmarked (s := s.withRailGood good) recovery cause
  refine ⟨v, hv, ?_⟩
  rw [exec_trips hi, e, Supply.trip_unmarked (u := (s.withRailGood good).supply) recovery]
  rfl

end Sys2Proof.Machine
end

section
/-! The boundary of a frame whose walk has not taken every row (R138, R140, R141; Log 10), and the phases of the supply
(R146, R149 to R152, R154, R157): O48 and O51.
-/

namespace Sys2Proof.Machine

/-! ## What a boundary makes of the scan -/

/-- The scan with the place of its walk moved (R138). -/
def State.walkedTo (s : State) (y x : Nat) : State := s.withScan { s.scan with walkRow := y, walkCol := x }

/-- What follows the advance of the lanes at a boundary: the scan is IDLE, or the next frame begins with the lanes
admitted (R117, R142). -/
def State.nextFrame (s : State) : State :=
  if (s.lanesIn .running).isEmpty then s.endScan
  else (s.admitLane s.admissible).withScan (s.admitLane s.admissible).scan.beginFrame

/-- A boundary while SCANNING (R141). -/
theorem exec_frameBoundary_scanning {s : State} (on : s.scan.scanning = true) : exec .frameBoundary s =
    .next s.finishFrame.frameTaken.advance.nextFrame.startRetire.settle := by
  have boundary : exec .frameBoundary s = execFrameBoundary s := rfl
  rw [boundary, execFrameBoundary, if_pos on]
  rfl

/-- The lanes advance by their own records: the scan has no part in it (R121). -/
theorem State.advance_withScan (s : State) (c : Scanner) : (s.withScan c).advance = s.advance.withScan c :=
  List.foldl_hom (fun t : State => t.withScan c) fun t l => by
    rw [State.advanceLane_pastFrame, State.advanceLane_pastFrame]
    rfl

theorem State.admitLane_withScan (s : State) (c : Scanner) (ls : List LaneId) :
    (s.withScan c).admitLane ls = (s.admitLane ls).withScan c :=
  congrArg (State.withArmingList · (s.armingList.filter fun l => !ls.contains l))
    (List.foldl_hom (fun t : State => t.withScan c) fun _ _ => rfl)

theorem State.advance_walkedTo (s : State) (y x : Nat) : (s.walkedTo y x).advance = s.advance.walkedTo y x := by
  rw [State.walkedTo, State.advance_withScan, State.walkedTo, (LaneOnly.advance s).scan]

/-- A frame that begins and a scan that ends both forget where the walk stood (R137, R142). -/
theorem State.nextFrame_walkedTo (s : State) (y x : Nat) : (s.walkedTo y x).nextFrame = s.nextFrame := by
  have running : (s.walkedTo y x).lanesIn .running = s.lanesIn .running := rfl
  have admissible : (s.walkedTo y x).admissible = s.admissible := rfl
  unfold State.nextFrame
  rw [running, admissible]
  split
  · rfl
  · rw [State.walkedTo, State.admitLane_withScan, ← (LaneOnly.admitLane s s.admissible).scan]
    rfl

/-! ## The rows that a boundary takes first -/

/-- The positions that the walk of the frame has still to visit, in its order (R138). -/
def State.positionsAhead (s : State) : List Pos :=
  ((List.range s.height).flatMap fun y => (List.range s.width).map fun k => ((k, y) : Pos)).filter
    fun x => decide (s.scan.walkRow < x.2) ||
      (decide (s.scan.walkRow = x.2) && decide (s.scan.walkCol ≤ x.1))

theorem State.mem_positionsAhead (s : State) (x : Pos) : x ∈ s.positionsAhead ↔ s.unvisited x = true := by
  have inPanel : (x ∈ (List.range s.height).flatMap fun y => (List.range s.width).map fun k => ((k, y) : Pos)) ↔
      x.1 < s.width ∧ x.2 < s.height := by
    obtain ⟨k, y⟩ := x
    simp [and_comm]
  rw [State.positionsAhead, List.mem_filter, inPanel, State.unvisited]
  simp only [Bool.and_eq_true, decide_eq_true_eq]

/-- The walk visits each position of the frame once (R138). -/
theorem State.positionsAhead_nodup (s : State) : s.positionsAhead.Nodup := by
  refine List.Nodup.filter _ (List.nodup_flatMap.2 ⟨fun y _ => ?_, ?_⟩)
  · exact List.nodup_range.map fun a b h => congrArg Prod.fst h
  · refine List.nodup_range.imp fun {y z} apart x hy hz => apart ?_
    obtain ⟨k, -, rfl⟩ := List.mem_map.1 hy
    obtain ⟨j, -, same⟩ := List.mem_map.1 hz
    exact (congrArg Prod.snd same).symm

theorem State.unvisited_iff (s : State) (x : Pos) : s.unvisited x = true ↔ x.1 < s.width ∧ x.2 < s.height ∧
    (s.scan.walkRow < x.2 ∨ s.scan.walkRow = x.2 ∧ s.scan.walkCol ≤ x.1) := by
  simp [State.unvisited, and_assoc]

theorem Scanner.markAhead_iff (c : Scanner) (height : Nat) : c.markAhead height = true ↔
    c.markRow ≠ 0 ∧ c.markRow < height ∧ (c.walkRow < c.markRow ∨ c.walkRow = c.markRow ∧ c.walkCol = 0) := by
  simp [Scanner.markAhead, and_assoc]

/-- A record is read from the pixel store alone (R2). -/
theorem State.withPixels_pixel (s t : State) (x : Pos) : (s.withPixels t.pixels).pixel x = t.pixel x := rfl

/-- A walk of the frame changes the lanes and the pixel records alone (R140). -/
theorem State.drive_parts (s : State) (visits : Pos → Bool) :
    s.drive visits = (s.withLanes (s.drive visits).lanes).withPixels (s.drive visits).pixels := by
  obtain ⟨v, e, -⟩ := s.drive_eq visits
  rw [e]
  rfl

theorem State.drive_lane (s : State) (visits : Pos → Bool) (l : LaneId) : (s.drive visits).lane l =
    { s.lane l with saturated := min 65535 ((s.lane l).saturated + s.clips visits l) } := by
  obtain ⟨v, e, hv⟩ := s.drive_eq visits
  rw [← hv l, e]
  rfl

/-- The state in which a boundary's walk has taken every row (R138; Log 10). -/
def State.walkedOut (s : State) : State := s.finishFrame.walkedTo s.height 0

theorem State.walkedOut_eq (s : State) : s.walkedOut = (s.drive s.unvisited).withScan
    { s.scan with
      walkRow := s.height, walkCol := 0
      markPulses := s.scan.markPulses + if s.scan.markAhead s.height then 1 else 0 } := by
  have pulses : (if s.scan.markAhead s.height then s.scan.markPulses + 1 else s.scan.markPulses) =
      s.scan.markPulses + if s.scan.markAhead s.height then 1 else 0 := by
    split <;> rfl
  rw [State.walkedOut, State.finishFrame, ← pulses]
  generalize s.drive s.unvisited = t
  rfl

/-- Nothing is left to a walk that has taken every row, and its counts are held at 65535 (R8, R138). -/
theorem State.finishFrame_walkedOut (s : State) : s.walkedOut.finishFrame = s.walkedOut := by
  rw [State.walkedOut_eq]
  refine State.finishFrame_whole ?_ fun l => ?_
  · rw [State.withScan_height, State.withScan_scan, s.drive_parts, State.withPixels_height, State.withLanes_height]
  · rw [State.withScan_lane, State.drive_lane]
    exact Nat.min_le_left _ _

/-- A boundary is that of the state in which the walk has taken every row (R141; Log 10). -/
theorem exec_frameBoundary_walkedOut {s : State} (on : s.scan.scanning = true) :
    exec .frameBoundary s = exec .frameBoundary s.walkedOut := by
  have taken : s.walkedOut.frameTaken = s.finishFrame.frameTaken.walkedTo s.height 0 := rfl
  rw [exec_frameBoundary_scanning on, exec_frameBoundary_scanning (s := s.walkedOut) on, State.finishFrame_walkedOut,
    taken, State.advance_walkedTo, State.nextFrame_walkedTo]

/-- Settles O48: the boundary's first act is the walk of the positions ahead, and what follows forgets its place. -/
theorem boundaryTakesRest : Obligations.BoundaryTakesRest := by
  intro s on width hs c ahead rest
  have pixel (x : Pos) (hx : x.1 < 2048) : (s.withPixels (s.drive s.unvisited).pixels).pixel x = _ :=
    (State.withPixels_pixel s _ x).trans (s.drive_pixel s.unvisited x hx)
  refine ⟨(s.drive s.unvisited).lanes, (s.drive s.unvisited).pixels, ?_, fun x hw hh hx => ?_, fun x hx out => ?_,
    fun l => ?_⟩
  · rw [exec_frameBoundary_walkedOut on, State.walkedOut_eq, ← s.drive_parts s.unvisited]
    simp only [Scanner.markAhead_iff, c]
  · exact (pixel x (by omega)).trans ((if_pos ((s.unvisited_iff x).2 ⟨hw, hh, hx⟩)).trans
      (s.drivenRecord_eq _ (hs.pixel_legal x)))
  · exact (pixel x hx).trans (if_neg fun hu => out ((s.unvisited_iff x).1 hu))
  · have inPanel : ∀ x ∈ s.positionsAhead, x.1 < 2048 := fun x hx =>
      Nat.lt_of_lt_of_le ((s.unvisited_iff x).1 ((s.mem_positionsAhead x).1 hx)).1 width
    have clips : s.clips s.unvisited l = s.clipCount rest l :=
      s.clips_eq_clipCount hs s.unvisited s.positionsAhead (fun x _ => s.mem_positionsAhead x) inPanel
        s.positionsAhead_nodup l
    rw [← clips, State.withLanes_lane]
    exact s.drive_lane s.unvisited l

/-! ## The phases of the supply -/

section Phases

variable {s : State}

/-- RAIL_GOOD moves RISING to ON and elsewhere the level alone (R149, R150). -/
theorem exec_railGoodAsserted (s : State) : exec .railGoodAsserted s = .next ((s.withSupply
    (if s.supply.state = .rising then { s.supply with railGood := true }.enterOn
      else { s.supply with railGood := true })).settle) := rfl

/-- RAIL_LOST outside ON moves the level alone (R149). -/
theorem exec_railLost_level (h : s.supply.state ≠ .on) :
    exec .railLost s = .next ((s.withRailGood false).settle) := by
  have lost : exec .railLost s = execRailLost s := rfl
  have still : (s.withSupply { s.supply with railGood := false }).supply.state ≠ .on := h
  rw [lost, execRailLost]
  simp only [if_neg still]
  rfl

/-- A park timer that runs out in ON takes the supply to FALLING (R151). -/
theorem exec_parkTimerExpiry_running (on : s.supply.state = .on) (timer : s.supply.parkTimer.isSome = true) :
    exec .parkTimerExpiry s = .next ((s.withSupply s.supply.enterFalling).settle) :=
  if_pos ⟨on, timer⟩

/-- The supply at the end of its fall (R152, R154). -/
def Supply.fallen (u : Supply) : Supply := { u with state := .off, fallTimer := none }

/-- A fall that ends passes through OFF, which demand leaves in the same event (R148, R152, R154). -/
theorem exec_fallTimerExpiry_falling (timer : s.supply.fallTimer.isSome = true)
    (h : s.supply.state = .falling ∨ s.supply.state = .tripped) :
    exec .fallTimerExpiry s = .next ((s.withSupply s.supply.fallen).raiseOnDemand.settle) := by
  have expiry : exec .fallTimerExpiry s = execFallTimerExpiry s := rfl
  rw [expiry, execFallTimerExpiry, if_pos timer]
  rcases h with falling | tripped
  · simp only [falling]; rfl
  · simp only [tripped]; rfl

/-- HALTED outlasts its fall timer (R157). -/
theorem exec_fallTimerExpiry_halted (timer : s.supply.fallTimer.isSome = true) (halted : s.supply.state = .halted) :
    exec .fallTimerExpiry s = .next ((s.withSupply { s.supply with fallTimer := none }).settle) := by
  have expiry : exec .fallTimerExpiry s = execFallTimerExpiry s := rfl
  rw [expiry, execFallTimerExpiry, if_pos timer]
  simp only [halted]

/-- Without demand an OFF supply stays (R148). -/
theorem State.raiseOnDemand_empty (h : s.armingList = []) : s.raiseOnDemand = s :=
  if_neg fun demand => demand.2 h

/-- A fall that ends with demand rises again, to ON where the rails are already good (R150, R152, R154). -/
theorem exec_fallTimerExpiry_demand (timer : s.supply.fallTimer.isSome = true)
    (h : s.supply.state = .falling ∨ s.supply.state = .tripped) (demand : s.armingList ≠ []) :
    exec .fallTimerExpiry s = .next ((s.withSupply
      (if s.supply.railGood then
        { s.supply.fallen with state := .on, riseTimer := none, parkTimer := some s.supply.parkDuration }
      else { s.supply.fallen with state := .rising, riseTimer := some s.supply.riseDuration })).settle) := by
  rw [exec_fallTimerExpiry_falling timer h, State.raiseOnDemand_armed (s := s.withSupply s.supply.fallen) demand]
  have raised : (s.withSupply s.supply.fallen).supply.state = .off := rfl
  rw [if_neg (not_not_intro raised), Supply.enterRising_eq]
  rfl

/-- RAIL_EN is asserted in RISING and ON alone (R149). -/
theorem State.railEn_iff (s : State) : s.railEn = true ↔ s.supply.state = .rising ∨ s.supply.state = .on := by
  simp [State.railEn]

end Phases

/-- Settles O51: each event by the phase that it finds; a fall that ends finds demand or none. -/
theorem supplyPhases : Obligations.SupplyPhases := by
  intro s u
  refine ⟨fun rising => ?_, fun other => ?_, exec_railLost_level, exec_parkTimerExpiry_running,
    fun timer falls => ⟨fun idle => ?_, fun demand low => ?_, fun demand good => ?_⟩,
    exec_fallTimerExpiry_halted, s.railEn_iff, rfl⟩
  · rw [exec_railGoodAsserted, if_pos rising]
    rfl
  · rw [exec_railGoodAsserted, if_neg other]
  · rw [exec_fallTimerExpiry_falling timer falls, State.raiseOnDemand_empty (s := s.withSupply s.supply.fallen) idle]
    rfl
  · rw [exec_fallTimerExpiry_demand timer falls demand, if_neg (Bool.eq_false_iff.1 low)]
    rfl
  · rw [exec_fallTimerExpiry_demand timer falls demand, if_pos good]
    rfl

end Sys2Proof.Machine
end

section
/-! What follows every event (R162, R165, R168, R180): O5, and the events of the Power Controller alone (R162 to R166): O7.
`State.settle` is said once as an equation for the whole next state, read off the state before it.
-/

namespace Sys2Proof.Machine

/-! ## The PART_RESET wait and the note of READY -/

/-- The Power Controller once the wait after a PART_RESET has been judged (R180). -/
def State.waitJudged (s : State) : PowerUnit := { s.power with resetWait := s.power.resetWait && !s.allFree }

theorem State.endResetWait_eq (s : State) : s.endResetWait = s.withPower s.waitJudged := by
  unfold State.endResetWait
  split
  · rename_i ends
    obtain ⟨waits, free⟩ := Bool.and_eq_true_iff.1 ends
    simp [State.waitJudged, waits, free]
  · rename_i stays
    have same : (s.power.resetWait && !s.allFree) = s.power.resetWait := by simpa using stays
    rw [State.waitJudged, same]
    rfl

/-- A transaction once it has found READY at this level (Log 5). -/
def Transaction.noted (t : Transaction) (ready : Bool) : Transaction :=
  if t = .opened false then .opened ready else t

theorem Transaction.noted_opened (ready : Bool) : (Transaction.opened false).noted ready = .opened ready := if_pos rfl

theorem Transaction.noted_of_ne {t : Transaction} (h : t ≠ .opened false) (ready : Bool) : t.noted ready = t := if_neg h

/-- Noting READY neither opens nor closes a transaction. -/
theorem Transaction.noted_eq_closed (t : Transaction) (ready : Bool) : t.noted ready = .closed ↔ t = .closed := by
  by_cases h : t = .opened false <;> simp [Transaction.noted, h]

theorem State.noteReady_eq (s : State) (p : Port) :
    s.noteReady p = s.setPort p { s.port p with txn := (s.port p).txn.noted (s.ready p) } := by
  by_cases h : (s.port p).txn = .opened false
  · by_cases hr : s.ready p = true
    · simp [State.noteReady, h, hr, Transaction.noted]
    · have keep : { s.port p with txn := .opened false } = s.port p := by rw [← h]
      simp [State.noteReady, h, hr, Transaction.noted, keep]
  · have keep : s.noteReady p = s := by
      unfold State.noteReady
      split
      · contradiction
      · rfl
    rw [keep, Transaction.noted_of_ne h]
    exact (s.setPort_self p).symm

/-- READY asks an open transaction only for a free entry, whatever the transaction has noted (R61). -/
theorem PortState.ready_noted (q : PortState) (r : Bool) : { q with txn := q.txn.noted r }.ready = q.ready := by
  by_cases h : q.txn = .opened false
  · simp [PortState.ready, h, Transaction.noted]
  · rw [Transaction.noted_of_ne h]

theorem State.noteReady_ready (s : State) (p q : Port) : (s.noteReady p).ready q = s.ready q := by
  have same : ((s.noteReady p).port q).ready = (s.port q).ready := by
    rw [State.noteReady_eq, State.setPort_port]
    split
    · rename_i h
      rw [h, PortState.ready_noted]
    · rfl
  simp [State.ready, State.validatingFor, same]

/-! ## The doze timer and SLEEP -/

/-- The part enters SLEEP: from RUN or DOZE, quiet, both consents set and no zone active (R165). -/
def State.fallsAsleep (s : State) : Bool :=
  (decide (s.power.state = .run) || decide (s.power.state = .doze)) && s.quiet && s.sleepAgreed

/-- The doze timer of a part that stays awake: in RUN it runs while the part is quiet (R162; Log 38). -/
def State.timerJudged (s : State) : Timer :=
  if s.power.state = .run then
    if s.quiet then some (s.power.dozeTimer.getD s.power.dozeDelay) else none
  else s.power.dozeTimer

/-- The Power Controller once the doze timer and SLEEP have been judged (R162, R165). -/
def State.powerJudged (s : State) : PowerUnit :=
  { s.power with
    state := if s.fallsAsleep then .sleep else s.power.state
    dozeTimer := if s.fallsAsleep then none else s.timerJudged }

/-- The Temperature Unit once SLEEP has been judged: its timer stops with the oscillator (R165). -/
def State.tempJudged (s : State) : TempUnit :=
  { s.temp with staleTimer := if s.fallsAsleep then none else s.temp.staleTimer }

theorem State.sleepAgreed_iff (s : State) :
    s.sleepAgreed = true ↔ (∀ p, (s.port p).consent = true) ∧ ∀ z, s.zone z = none := by
  have both : (∀ p, (s.port p).consent = true) ↔ s.portA.consent = true ∧ s.portB.consent = true :=
    ⟨fun h => ⟨h .a, h .b⟩, fun ⟨ha, hb⟩ p => by cases p <;> assumption⟩
  simp only [both, State.sleepAgreed, Bool.and_eq_true, s.noZone_iff]

theorem State.fallsAsleep_iff (s : State) : s.fallsAsleep = true ↔
    (s.power.state = .run ∨ s.power.state = .doze) ∧ s.quiet = true ∧ s.sleepAgreed = true := by
  simp [State.fallsAsleep, and_assoc]

theorem State.judgePower_asleep {s : State} (h : s.fallsAsleep = true) : s.judgePower = s.enterSleep := by
  obtain ⟨run | doze, hq, ha⟩ := s.fallsAsleep_iff.1 h
  · simp [State.judgePower, run, hq, ha]
  · simp [State.judgePower, doze, hq, ha]

theorem State.judgePower_awake {s : State} (h : s.fallsAsleep = false) :
    s.judgePower = s.withPower { s.power with dozeTimer := s.timerJudged } := by
  have kept (timer : s.timerJudged = s.power.dozeTimer) (same : s.judgePower = s) :
      s.judgePower = s.withPower { s.power with dozeTimer := s.timerJudged } := by
    rw [same, timer]
    rfl
  cases hp : s.power.state with
  | run =>
    cases hq : s.quiet with
    | true =>
      have ha : s.sleepAgreed = false := by simpa [State.fallsAsleep, hp, hq] using h
      cases ht : s.power.dozeTimer with
      | none => simp [State.judgePower, State.timerJudged, hp, hq, ha, ht]
      | some n =>
        exact kept (by simp [State.timerJudged, hp, hq, ht]) (by simp [State.judgePower, hp, hq, ha, ht])
    | false => simp [State.judgePower, State.timerJudged, hp, hq]
  | doze =>
    have ha : (s.quiet && s.sleepAgreed) = false := by simpa [State.fallsAsleep, hp] using h
    exact kept (by simp [State.timerJudged, hp]) (by simp [State.judgePower, hp, ha])
  | _ => exact kept (by simp [State.timerJudged, hp]) (by simp [State.judgePower, hp])

theorem State.judgePower_eq (s : State) : s.judgePower = (s.withPower s.powerJudged).withTemp s.tempJudged := by
  cases h : s.fallsAsleep with
  | true => simp [State.judgePower_asleep h, State.enterSleep, State.powerJudged, State.tempJudged, h]
  | false =>
    have power : s.powerJudged = { s.power with dozeTimer := s.timerJudged } := by simp [State.powerJudged, h]
    have temp : s.tempJudged = s.temp := by simp [State.tempJudged, h]
    rw [State.judgePower_awake h, power, temp]
    rfl

/-- SLEEP is entered from where READY is not held low by the power state, and keeps it so (R165). -/
theorem State.judgePower_ready (s : State) (q : Port) : s.judgePower.ready q = s.ready q := by
  have held (st : PowerState) (h : st ≠ .run ∧ st ≠ .doze ∧ st ≠ .sleep) :
      s.judgePower.power.state = st ↔ s.power.state = st := by
    cases hs : s.fallsAsleep with
    | true =>
      obtain ⟨notRun, notDoze, notSleep⟩ := h
      obtain ⟨awake, -⟩ := s.fallsAsleep_iff.1 hs
      rw [State.judgePower_asleep hs]
      exact ⟨fun e => absurd e.symm notSleep, fun e => (awake.elim (e ▸ notRun) (e ▸ notDoze)).elim⟩
    | false => rw [State.judgePower_awake hs]; rfl
  rw [Bool.eq_iff_iff, State.ready_iff, State.ready_iff, Ne, Ne, held .init (by decide), held .waking (by decide),
    s.judgePower_table, s.judgePower_port]
  rw [State.judgePower_eq]
  rfl

/-! ## What follows every event -/

/-- The state once the reset wait has been judged and READY noted: what `State.settle` judges for SLEEP. -/
def State.readyNoted (s : State) : State := (s.endResetWait.noteReady .a).noteReady .b

theorem State.readyNoted_eq (s : State) : s.readyNoted = ((s.withPower s.waitJudged).setPort .a
    { s.portA with txn := s.portA.txn.noted (s.endResetWait.ready .a) }).setPort .b
      { s.portB with txn := s.portB.txn.noted (s.endResetWait.ready .b) } := by
  rw [State.readyNoted, State.noteReady_eq _ .b, State.noteReady_ready, State.noteReady_eq, State.endResetWait_eq]
  rfl

theorem State.settle_ready (s : State) (p : Port) : s.settle.ready p = s.endResetWait.ready p := by
  rw [State.settle, State.judgePower_ready, State.noteReady_ready, State.noteReady_ready]

theorem State.readyNoted_port (s : State) (p : Port) :
    s.readyNoted.port p = { s.port p with txn := (s.port p).txn.noted (s.endResetWait.ready p) } := by
  rw [s.readyNoted_eq]
  cases p <;> simp [State.port_a, State.port_b]

/-- Noting READY and ending the reset wait touch none of the quiet conditions. -/
theorem State.readyNoted_quiet (s : State) : s.readyNoted.quiet = s.quiet :=
  QuietSound.State.quiet_ofLink (((LinkOnly.endResetWait s).trans (.noteReady _ .a)).trans (.noteReady _ .b)) fun p => by
    have high : (s.readyNoted.port p).txn = .closed ↔ (s.port p).txn = .closed := by
      rw [s.readyNoted_port, Transaction.noted_eq_closed]
    exact decide_eq_decide.2 high

theorem State.readyNoted_fallsAsleep (s : State) : s.readyNoted.fallsAsleep = s.fallsAsleep := by
  have agreed : s.readyNoted.sleepAgreed = s.sleepAgreed := by simp [State.readyNoted_eq, State.sleepAgreed]
  have state : s.readyNoted.power.state = s.power.state := by simp [State.readyNoted_eq, State.waitJudged]
  rw [State.fallsAsleep, State.fallsAsleep, state, s.readyNoted_quiet, agreed]

/-- The Power Controller after every event (R162, R165, R180). -/
def State.powerSettled (s : State) : PowerUnit := { s.powerJudged with resetWait := s.waitJudged.resetWait }

/-- What follows every event, read off the state before it. -/
theorem State.settle_eq (s : State) : s.settle = (((s.withPower s.powerSettled).withTemp s.tempJudged).setPort .a
    { s.portA with txn := s.portA.txn.noted (s.settle.ready .a) }).setPort .b
      { s.portB with txn := s.portB.txn.noted (s.settle.ready .b) } := by
  have power : s.readyNoted.power = s.waitJudged := by simp [State.readyNoted_eq]
  have temp : s.readyNoted.tempJudged = s.tempJudged := by
    rw [State.tempJudged, State.tempJudged, s.readyNoted_fallsAsleep]
    simp [State.readyNoted_eq]
  have settled : s.readyNoted.powerJudged = s.powerSettled := by
    simp [State.powerJudged, State.powerSettled, State.timerJudged, s.readyNoted_fallsAsleep, s.readyNoted_quiet, power,
      State.waitJudged]
  have judged : s.settle = s.readyNoted.judgePower := rfl
  rw [s.settle_ready, s.settle_ready, judged, State.judgePower_eq, settled, temp, State.readyNoted_eq]
  rfl

/-- Settles O5: the equation of what follows every event, its fields read by whether the part falls asleep. -/
theorem settleJudgesPower : Obligations.SettleJudgesPower := by
  intro s quiet agreed
  have quietIff : s.quiet = true ↔ quiet := by rw [s.quiet_iff, s.allFree_iff]
  refine ⟨s.powerSettled, s.portA.txn.noted (s.settle.ready .a), s.portB.txn.noted (s.settle.ready .b), s.fallsAsleep,
    s.settle_eq, fun h => Transaction.noted_of_ne h _, fun h => ?_, fun h => Transaction.noted_of_ne h _, fun h => ?_,
    ?_, rfl, fun asleep => if_pos asleep, fun run hq awake => ?_, fun run hq => ?_, fun notRun awake => ?_, rfl, rfl, rfl,
    ?_⟩
  · rw [h, Transaction.noted_opened]
  · rw [h, Transaction.noted_opened]
  · rw [s.fallsAsleep_iff, quietIff, s.sleepAgreed_iff]
  · simp [State.powerSettled, State.powerJudged, State.timerJudged, awake, run, quietIff.2 hq]
  · have unquiet : s.quiet = false := Bool.eq_false_iff.2 fun h => hq (quietIff.1 h)
    simp [State.powerSettled, State.powerJudged, State.timerJudged, run, unquiet]
  · simp [State.powerSettled, State.powerJudged, State.timerJudged, awake, notRun]
  · have inUse : s.allFree = false ↔ ∃ l, (s.lane l).state ≠ .free := by
      rw [← Bool.not_eq_true, s.allFree_iff, not_forall]
    simp [State.powerSettled, State.waitJudged, inUse]

/-! ## WAKING_END, DOZE_TIMER_EXPIRY and SLEEP -/

theorem exec_wakingEnd {s : State} (h : s.power.state = .waking) :
    exec .wakingEnd s = .next ((s.withPower { s.power with state := .run }).settle) := if_pos h

theorem exec_dozeTimerExpiry {s : State} (h : s.power.state = .run) (timer : s.power.dozeTimer.isSome = true) :
    exec .dozeTimerExpiry s = .next ((s.withPower { s.power with state := .doze, dozeTimer := none }).settle) :=
  if_pos ⟨h, timer⟩

/-- SLEEP sets the consent that every rise of a command clears (R164). -/
theorem exec_sleep {p : Port} {s : State} (h : s.takes p) :
    exec (.sleep p []) s = .next ((s.setPort p { s.ended p 1 .ok with consent := true }).settle) := by
  have effect : effectSleep p [] (s.setPort p (s.risen p 1)) = s.setPort p { s.ended p 1 .ok with consent := true } := by
    simp [effectSleep, State.setResult_eq, State.risen, State.ended, Result.code]
  rw [exec_taken (i := .sleep p []) rfl h rfl]
  exact congrArg (fun t : State => Host.Outcome.next t.settle) effect

/-- Once asleep the part is in SLEEP with the doze and stale timers stopped (R165). -/
theorem State.settle_asleep {s : State} (h : s.fallsAsleep = true) :
    s.settle.power.state = .sleep ∧ s.settle.temp.staleTimer = none ∧ s.settle.power.dozeTimer = none := by
  rw [s.settle_eq]
  simp [State.powerSettled, State.powerJudged, State.tempJudged, h]

/-- Settles O7: each event by its equation; a SLEEP that completes the agreement of a quiet part is entered by what
follows every event. -/
theorem sleepAndDoze : Obligations.SleepAndDoze := by
  refine ⟨fun s => ⟨exec_wakingEnd, exec_dozeTimerExpiry⟩, ?_⟩
  intro p s takes u
  refine ⟨exec_sleep takes, fun run hq other zones => ?_⟩
  have consents (q : Port) : (u.port q).consent = true := by
    rw [State.setPort_port]
    split
    · rfl
    · rename_i hne
      rwa [eq_otherPort_of_ne hne]
  have agreed : u.sleepAgreed = true :=
    u.sleepAgreed_iff.2 ⟨consents, fun z => (s.setPort_zone p _ z).trans (zones z)⟩
  have running : u.power.state = .run := (congrArg _ (s.setPort_power p _)).trans run
  have asleep : u.fallsAsleep = true := u.fallsAsleep_iff.2 ⟨.inl running, hq, agreed⟩
  obtain ⟨state, stale, doze⟩ := State.settle_asleep asleep
  have scan : u.settle.scan = s.scan := u.settle_scan.trans (s.setPort_scan p _)
  refine ⟨state, stale, doze, scan, fun sound => ?_⟩
  obtain ⟨-, idle, -⟩ := u.quiet_iff.1 hq
  rw [scan]
  exact sound.idleMark ((congrArg _ (s.setPort_scan p _)).symm.trans idle)

end Sys2Proof.Machine
end

section
/-! The link's frames and codes (R168, R182 to R184), the short queries (R174, R178) and the done queue (R175, R176): O8, O9,
O12, O36 and O37.
-/

namespace Sys2Proof.Machine

/-! ## Frames -/

theorem namesNoCommand_cons (c : Byte) (req : List Byte) : namesNoCommand (c :: req) = true ↔ c ∉ commandCodes := by
  simp [namesNoCommand]

theorem exists_code_of_not_namesNoCommand {bytes : List Byte} (h : ¬ namesNoCommand bytes = true) :
    ∃ c req, bytes = c :: req ∧ c ∈ commandCodes := by
  cases bytes with
  | nil => exact absurd rfl h
  | cons c req => exact ⟨c, req, rfl, by rwa [namesNoCommand_cons, not_not] at h⟩

/-- Bytes that name no command read as the unknown command that carries them (R169). -/
theorem commandOfFrame_of_namesNoCommand (p : Port) {taken : List Byte} (h : namesNoCommand taken = true) :
    commandOfFrame p taken = .unknownCommand p taken := by
  cases taken with
  | nil => rfl
  | cons c req =>
    rw [namesNoCommand_cons] at h
    simp only [commandOfFrame]
    split
    case h_33 => rfl
    all_goals exact absurd (by decide) h

theorem commandOfFrame_wellFormed_of_mem (p : Port) (req : List Byte) {c : Byte} (h : c ∈ commandCodes) :
    (commandOfFrame p (c :: req)).wellFormed = true := by
  fin_cases h <;> rfl

/-- Bytes that begin with a code of the table are the frame of the command they read as, unless the later bytes are
commands of their own (R182; Log 7). -/
theorem frameOf_commandOfFrame_of_mem (p : Port) (req : List Byte) {c : Byte} (h : c ∈ commandCodes)
    (whole : c ∉ [0x04, 0x05, 0x07]) : frameOf (commandOfFrame p (c :: req)) = some (p, c :: req) := by
  have others : c ∈ commandCodes.filter (· ∉ [0x04, 0x05, 0x07]) := List.mem_filter.2 ⟨h, decide_eq_true whole⟩
  fin_cases others <;> rfl

/-- The frame of a command reads back as the command; an unknown one must name none (R169, R182). -/
theorem commandOfFrame_frameOf {i : Instr} {p : Port} {bytes : List Byte} (hw : i.wellFormed = true)
    (hf : frameOf i = some (p, bytes)) : commandOfFrame p bytes = i := by
  cases i with
  | unknownCommand q taken =>
    cases hf
    exact commandOfFrame_of_namesNoCommand p hw
  | writePixels q ph | writeContinue q ph | readPixels q ph =>
    cases ph <;> cases hf
    rfl
  | _ =>
    cases hf <;> rfl

/-- Settles O8: a transaction either names no command, and is its own frame, or begins with a code of the table. -/
theorem frameRoundTrip : Obligations.FrameRoundTrip := by
  refine ⟨fun i p bytes => commandOfFrame_frameOf, fun p bytes hb => ?_, fun p bytes => ?_⟩
  · by_cases h : namesNoCommand bytes = true
    · rw [commandOfFrame_of_namesNoCommand p h]
      rfl
    · obtain ⟨c, req, rfl, hc⟩ := exists_code_of_not_namesNoCommand h
      exact frameOf_commandOfFrame_of_mem p req hc (by simpa using hb)
  · by_cases h : namesNoCommand bytes = true
    · rwa [commandOfFrame_of_namesNoCommand p h]
    · obtain ⟨c, req, rfl, hc⟩ := exists_code_of_not_namesNoCommand h
      exact commandOfFrame_wellFormed_of_mem p req hc

/-! ## Codes and pixel bytes -/

/-- Settles O9: the table of R183, entry by entry. -/
theorem resultCodes : Obligations.ResultCodes := ⟨rfl, rfl, rfl⟩

theorem levelOf_val {n : Nat} (h : n < 16) : (levelOf n).val = n := Nat.mod_eq_of_lt h

theorem levelOf_bit (b : Byte) (i : Nat) :
    (if b.toNat / 2 ^ i % 2 = 1 then levelOf 15 else levelOf 0).val = if b.getLsbD i then 15 else 0 := by
  rw [BitVec.getLsbD, Nat.testBit_eq_decide_div_mod_eq]
  by_cases h : b.toNat / 2 ^ i % 2 = 1 <;> simp [h, levelOf]

theorem toNat_extractLsb'_div (b : Byte) (i k : Nat) : (b.extractLsb' i k).toNat = b.toNat / 2 ^ i % 2 ^ k := by
  rw [BitVec.extractLsb'_toNat, Nat.shiftRight_eq_div_pow]

/-- Settles O12: each level is a field of the byte, and the two fields of a P4 byte are the byte. -/
theorem pixelPacking : Obligations.PixelPacking := by
  intro b
  have high : b.toNat / 16 < 16 := by omega
  have low : b.toNat % 16 < 16 := Nat.mod_lt _ (by decide)
  have nibbles : (b.extractLsb' 4 4).toNat = b.toNat / 16 ∧ (b.extractLsb' 0 4).toNat = b.toNat % 16 := by
    constructor <;> rw [toNat_extractLsb'_div] <;> omega
  have p2 (i : Nat) : (levelOf (b.toNat / 2 ^ i % 4 * 5)).val = (b.extractLsb' i 2).toNat * 5 := by
    rw [toNat_extractLsb'_div, levelOf_val] <;> omega
  refine ⟨?_, ?_, ?_, ?_, fun f => unpackByte_length f b⟩
  · simp only [unpackByte, List.map_cons, List.map_nil, levelOf_bit]
    rfl
  · simp only [unpackByte, List.map_cons, List.map_nil, p2]
    rfl
  · simp only [unpackByte, List.map_cons, List.map_nil, levelOf_val high, levelOf_val low, nibbles]
  · rw [unpackByte, packLevels, levelOf_val high, levelOf_val low, Nat.div_add_mod', byteOf_toNat]

/-! ## Queries -/

/-- A query that takes effect (R171): its own effect is made on its port as the transaction has risen, the result becomes
OK, and the response leads with the result as it stood. -/
theorem exec_query {i : Instr} {p : Port} {fill : List Byte} (hi : requestOf i = some (p, fill, true, 0)) {s : State}
    (h : s.takes p) {data : List Byte} {own : PortState → PortState}
    (he : effectOf i (s.setPort p (s.risen p (fill.length + 1))) =
      (s.setPort p (s.risen p (fill.length + 1))).answer p data own) :
    exec i s = .next ((s.setPort p { own (s.risen p (fill.length + 1)) with
      result := .ok, response := (s.port p).result.code :: data }).settle) := by
  rw [exec_taken hi h (Nat.zero_le _), he]
  simp [State.answer, State.setResult_eq, State.risen, Result.code]

/-- Settles O36: GET_EVENTS alone has an effect of its own, the flags cleared. -/
theorem shortQueries : Obligations.ShortQueries := by
  intro p s fill h q e
  refine ⟨exec_answer (i := .getResult p fill) rfl h rfl, exec_answer (i := .getId p fill) rfl h rfl, ?_⟩
  refine exec_query (i := .getEvents p fill) rfl h (own := fun r => { r with flags := 0 }) (data := eventBytes q) ?_
  simp [effectOf, effectGetEvents, eventBytes, State.risen, q]

/-! ## The done queue -/

theorem exec_getDone_cons {p : Port} {s : State} (fill : List Byte) (h : s.takes p) {d : DoneRecord}
    {rest : List DoneRecord} (hd : (s.port p).done = d :: rest) :
    exec (.getDone p fill) s = .next ((s.setPort p { s.ended p (fill.length + 1) .ok with
      done := rest, response := (s.port p).result.code :: doneBytes d }).settle) := by
  refine exec_query (i := .getDone p fill) rfl h (own := fun r => { r with done := rest }) (data := doneBytes d) ?_
  simp [effectOf, effectGetDone, State.risen, hd]

theorem exec_getDone_nil {p : Port} {s : State} (fill : List Byte) (h : s.takes p) (hd : (s.port p).done = []) :
    exec (.getDone p fill) s = .next ((s.setPort p { s.ended p (fill.length + 1) .ok with
      response := (s.port p).result.code :: noDoneBytes }).settle) :=
  exec_answer (i := .getDone p fill) rfl h (by simp [effectOf, effectGetDone, State.risen, hd])

/-- Settles O37: the query by what stands in the queue, and the queue by the record's entry to it. -/
theorem doneQueue : Obligations.DoneQueue := by
  refine ⟨fun p s fill h => ⟨fun d rest hd => ?_, fun hd => exec_getDone_nil fill h hd⟩,
    fun p s d => ⟨fun hl => ?_, fun hl => ?_⟩⟩
  · rw [exec_getDone_cons fill h hd]
    obtain ⟨tag, outcome, requested, final, promoted, stale, - | ⟨band, _, _, _, _, _, _⟩⟩ := d
    · rfl
    · cases band <;> rfl
  · rw [State.appendDone_eq, if_pos hl]
  · rw [State.appendDone_eq, if_neg hl.not_gt]

end Sys2Proof.Machine
end

section
/-! The queue of waiting commands (Logs 1, 2, 3 and 34): O1 and O2. No operation of the part writes the queue, so that every
effect, and with it every command, leaves what waits behind it; and every command answers.
-/

namespace Sys2Proof.Machine

/-! ## Operations of the link and over lanes -/

theorem LinkOnly.pending {s t : State} (h : LinkOnly s t) : t.pending = s.pending := by rw [h.body]

theorem LaneOnly.pending {s t : State} (h : LaneOnly s t) : t.pending = s.pending := by rw [h.body]

@[simp] theorem State.raise_pending (s : State) (p : Port) (f : Flag) : (s.raise p f).pending = s.pending :=
  (LaneOnly.raise s p f).pending

@[simp] theorem State.raiseBoth_pending (s : State) (f : Flag) : (s.raiseBoth f).pending = s.pending :=
  (LaneOnly.raiseBoth s f).pending

@[simp] theorem State.setResult_pending (s : State) (p : Port) (r : Result) : (s.setResult p r).pending = s.pending :=
  (LaneOnly.setResult s p r).pending

@[simp] theorem State.appendDone_pending (s : State) (p : Port) (d : DoneRecord) :
    (s.appendDone p d).pending = s.pending := (LaneOnly.appendDone s p d).pending

@[simp] theorem State.answer_pending (s : State) (p : Port) (data : List Byte) (own : PortState → PortState) :
    (s.answer p data own).pending = s.pending := by simp [State.answer]

@[simp] theorem State.leaveDoze_pending (s : State) : s.leaveDoze.pending = s.pending := (LinkOnly.leaveDoze s).pending

@[simp] theorem State.clockUntaken_pending (s : State) (p : Port) : (s.clockUntaken p).pending = s.pending :=
  (LinkOnly.clockUntaken s p).pending

@[simp] theorem State.abortLoad_pending (s : State) : s.abortLoad.pending = s.pending := State.withTable_pending s _

/-! ## Effects of the link's commands -/

/-- What the resets end leaves the queue of commands (R14, R93, R114, R127). -/
@[simp] theorem State.endOwned_pending (s : State) (mine : Port → Bool) (q : List Request) :
    (s.endOwned mine q).pending = s.pending := by
  obtain ⟨v, hv, -⟩ := s.endOwned_eq mine q
  rw [hv, State.withZones_pending, State.withQueue_pending, (LaneOnly.endLanes s mine).pending]

theorem effectWithdraw_pending (p : Port) (req : List Byte) (s : State) :
    (effectWithdraw p req s).pending = s.pending := by
  unfold effectWithdraw
  simp only
  split
  · simp
  · split
    · simp
    · split
      · simp
      · split
        · exact (LaneOnly.withdrawLane s p _).pending
        · simp

theorem effectTableBegin_pending (p : Port) (req : List Byte) (s : State) :
    (effectTableBegin p req s).pending = s.pending := by
  unfold effectTableBegin
  simp only
  split
  · simp
  · split
    · split <;> simp
    · simp
    · simp

/-- No effect of a command writes the queue of commands. -/
theorem effectOf_pending (i : Instr) (s : State) : (effectOf i s).pending = s.pending := by
  cases i with
  | setWindow p r => simp only [effectOf, effectSetWindow, State.mapContext]; split <;> simp
  | setFormat p r => simp only [effectOf, effectSetFormat, State.mapContext]; split <;> simp
  | setOrientation p r => simp only [effectOf, effectSetOrientation, State.mapContext]; split <;> simp
  | fillWindow p r =>
    simp only [effectOf, effectFillWindow, State.pushEntry]
    split
    · split <;> simp
    · simp
  | submitUpdate p r =>
    simp only [effectOf, effectSubmitUpdate, State.pushEntry]
    split
    · simp
    · simp [apply_ite State.pending]
  | withdraw p r => exact effectWithdraw_pending p r s
  | reserveZone p r =>
    simp only [effectOf, effectReserveZone]
    split
    · simp
    · simp [apply_ite State.pending]
  | releaseZone p r =>
    simp only [effectOf, effectReleaseZone]
    split
    · simp
    · split
      · simp
      · split <;> simp
  | reportTemperature p r => simp [effectOf, effectReportTemperature]
  | tableBegin p r => exact effectTableBegin_pending p r s
  | tableData p r =>
    simp only [effectOf, effectTableData]
    split
    · simp [apply_ite State.pending]
    · simp
  | tableEnd p r =>
    simp only [effectOf, effectTableEnd]
    split
    · split <;> simp
    · simp
  | tableAbort p r =>
    simp only [effectOf, effectTableAbort]
    split
    · simp [apply_ite State.pending]
    · simp
  | getTableInfo p r => simp [effectOf, effectGetTableInfo]
  | setGeometry p r => simp [effectOf, effectSetGeometry, apply_ite State.pending]
  | setLimits p r => simp [effectOf, effectSetLimits]
  | setTimers p r => simp [effectOf, effectSetTimers]
  | setFrameMark p r => simp [effectOf, effectSetFrameMark]
  | getEvents p r => simp [effectOf, effectGetEvents]
  | setEventEnable p r => simp only [effectOf, effectSetEventEnable]; split <;> simp
  | getDone p r => simp only [effectOf, effectGetDone]; split <;> simp
  | getResult p r => simp [effectOf, effectGetResult]
  | getStatus p r => simp [effectOf, effectGetStatus]
  | getScan p r => simp [effectOf, effectGetScan]
  | getPixel p r => simp only [effectOf, effectGetPixel]; split <;> simp
  | getId p r => simp [effectOf, effectGetId]
  | sleep p r => simp [effectOf, effectSleep]
  | portReset p r => simp [effectOf, effectPortReset_eq]
  | partReset p r => simp [effectOf, effectPartReset_eq, State.resetSettings, State.mapPorts]
  | _ => rfl

/-- A command that acts at the rise of its select leaves the queue, whatever its transaction comes to. -/
theorem State.transact_pending (s : State) (p : Port) (fr : Frame) (req : List Byte) (i : Instr) :
    (s.transact p fr req i (effectOf i)).pending = s.pending := by
  rcases s.transact_cases p fr req i (effectOf i) with hl | ⟨-, -, -, he⟩
  · exact hl.pending
  · rw [he, effectOf_pending, (LinkOnly.risen s p _).pending]

/-! ## Held transactions, streams and the table -/

@[simp] theorem State.applyHeld_pending (s : State) (p : Port) : (s.applyHeld p).pending = s.pending := by
  unfold State.applyHeld
  split
  · rfl
  · refine foldl_keeps (fun t : State => t.pending = s.pending) _ (fun t x ht => ?_) _ _ (by simp)
    rw [State.takeHeld_eq]
    cases x with
    | command i => exact (effectOf_pending i t).trans ht
    | writeEnd r => exact (t.setPort_pending p _).trans ht
    | untaken => exact (t.setPort_pending p _).trans ht

theorem State.placePixel_pending (s : State) (p : Port) (v : Level) : (State.placePixel p s v).pending = s.pending := by
  unfold State.placePixel
  split
  · simp [State.pushEntry, State.mapContext]
  · exact (LinkOnly.ignorePixel s p).pending

theorem State.takePixelByte_pending (s : State) (p : Port) (b : Byte) : (s.takePixelByte p b).pending = s.pending :=
  foldl_keeps (fun t : State => t.pending = s.pending) _ (fun t v ht => (t.placePixel_pending p v).trans ht) _ _
    (LinkOnly.sendResponseByte s p).pending

theorem State.takeCode_pending (s : State) (p : Port) (begin : PortState → PortState) :
    (s.takeCode p begin).pending = s.pending := by
  have ho := (LinkOnly.opened s p).pending
  unfold State.takeCode
  simp only
  split
  · split
    · simp [State.sendResponseByte, ho]
    · simp [ho]
  · simp [ho]

theorem State.enterValid_pending (s : State) (t : Table) (owner : Port) : (s.enterValid t owner).pending = s.pending := by
  simp [State.enterValid, (LaneOnly.sweepQueue _).pending]

/-! ## Engines and trips -/

@[simp] theorem State.startRetire_pending (s : State) : s.startRetire.pending = s.pending :=
  (LaneOnly.startRetire s).pending

@[simp] theorem State.joinRetire_pending (k : RetireKind) (o : UpdateOutcome) (s : State) (l : LaneId) :
    (State.joinRetire k o s l).pending = s.pending := (LaneOnly.joinRetire k o s l).pending

@[simp] theorem State.reportLane_pending (s : State) (l : LaneId) (d : DoneRecord) :
    (s.reportLane l d).pending = s.pending := (LaneOnly.reportLane s l d).pending

@[simp] theorem State.closeSurvey_pending (s : State) : s.closeSurvey.pending = s.pending :=
  (LaneOnly.closeSurvey s).pending

@[simp] theorem State.admitLane_pending (s : State) (ls : List LaneId) : (s.admitLane ls).pending = s.pending :=
  (LaneOnly.admitLane s ls).pending

@[simp] theorem State.raiseOnDemand_pending (s : State) : s.raiseOnDemand.pending = s.pending := by
  obtain ⟨v, hv⟩ := s.raiseOnDemand_eq
  rw [hv, State.withSupply_pending]

@[simp] theorem State.drive_pending (s : State) (visits : Pos → Bool) : (s.drive visits).pending = s.pending := by
  obtain ⟨lanes, hd, -⟩ := s.drive_eq visits
  rw [hd]; rfl

theorem State.finishVisit_pending (s : State) (w : Survey) (x : Pos) (v : Level) :
    (s.finishVisit w x v).pending = s.pending := by
  rw [State.finishVisit, State.withSurvey_pending, State.visitRecord]
  split <;> simp [State.setPixel]

theorem State.trip_pending (s : State) (cause : TripCause) : (s.trip cause).pending = s.pending := by
  have ended (u : State) : u.faultRunning.pending = u.pending := (LaneOnly.faultRunning u).pending
  unfold State.trip
  simp only
  split
  · simp [(LaneOnly.haltLanes _).pending, ended]
  · simp [ended]

/-! ## Answers that leave the queue -/

/-- The command answers a next state, with the queue of commands as it was. -/
def KeepsPending (s : State) (o : Host.Outcome State Fault Refusal) : Prop := Answers o fun t => t.pending = s.pending

theorem KeepsPending.same {s : State} : KeepsPending s (.next s) := .next rfl

theorem KeepsPending.settled {s u : State} (h : u.pending = s.pending) : KeepsPending s (.next u.settle) :=
  .next (u.settle_pending.trans h)

/-- A boundary drives what the walk has left, moves the lanes and the scan, and writes no queue (R121, R141). -/
theorem exec_frameBoundary_pending (s : State) : KeepsPending s (execFrameBoundary s) := by
  unfold execFrameBoundary
  split
  · refine .settled ?_
    have advanced (u : State) : u.advance.pending = u.pending := (LaneOnly.advance u).pending
    rw [State.startRetire_pending]
    split <;> simp [State.endScan, State.finishFrame, advanced]
  · exact .same

/-- The events of the drains and the engines answer a next state, with the queue of commands as it was. -/
theorem exec_engineEvent_pending {i : Instr} (hi : isEngineEvent i = true) (s : State) :
    KeepsPending s (exec i s) := by
  cases i with
  | drainPixelEntry p =>
    simp only [exec, execDrainPixelEntry]
    split
    · split
      · exact .settled (by simp [State.setLevel])
      · exact .same
    · exact .same
  | drainFillPixel p =>
    simp only [exec, execDrainFillPixel]
    split
    · split
      · exact .settled (by simp [State.setLevel])
      · exact .same
    · exact .same
  | drainSubmitEntry p =>
    simp only [exec, execDrainSubmitEntry]
    split
    · exact .settled ((LaneOnly.enterQueue _ _).pending.trans (s.setPort_pending p _))
    · exact .same
  | surveyStart =>
    simp only [exec, execSurveyStart]
    split
    · exact .settled rfl
    · exact .same
  | surveyVisit part =>
    simp only [exec, execSurveyVisit]
    split
    · split
      · split
        · exact .settled (s.finishVisit_pending _ _ _)
        · exact .same
      · split
        · split
          · exact .settled (State.finishVisit_pending _ _ _ _)
          · exact .settled rfl
        · exact .same
      · exact .same
    · exact .same
  | surveyEnd =>
    simp only [exec, execSurveyEnd]
    split
    · split
      · split
        · exact .settled (by simp)
        · split
          · exact .settled (by simp)
          · exact .settled (by simp)
      · exact .same
    · exact .same
  | scanStart =>
    simp only [exec, execScanStart]
    split
    · split
      · exact .settled (s.admitLane_pending _)
      · exact .same
    · exact .same
  | frameRow n =>
    simp only [exec, execFrameRow]
    split
    · exact .settled (by simp)
    · exact .same
  | frameBoundary => exact exec_frameBoundary_pending s
  | retireVisit =>
    simp only [exec, execRetireVisit]
    split
    · split
      · refine .settled ?_
        split <;> rfl
      · exact .same
    · exact .same
  | retireWalkEnd =>
    simp only [exec, execRetireWalkEnd]
    split
    · split
      · exact .settled (by simp)
      · exact .same
    · exact .same
  | _ => exact absurd hi Bool.false_ne_true

/-! ## Every command -/

/-- Every command on every state answers a next state, with the queue of commands as it was (Log 34). -/
theorem exec_pending (i : Instr) (s : State) : KeepsPending s (exec i s) := by
  by_cases he : isEngineEvent i = true
  · exact exec_engineEvent_pending he s
  by_cases hl : isLinkEvent i = true
  · exact (exec_linkEvent i s hl).imp fun t h => h.pending
  by_cases hs : isSupplyEvent i = true
  · obtain ⟨v, hv⟩ := exec_supplyEvent i s hs
    exact hv.imp fun t h => h.pending
  cases hr : requestOf i with
  | some r => rw [exec_request (i := i) hr s]; exact .settled (s.transact_pending _ _ _ i)
  | none =>
  cases i with
  | powerOnReset r => exact .next rfl
  | initSweepEnd =>
    simp only [exec, execInitSweepEnd]
    split
    · exact .settled rfl
    · exact .same
  | writePixels p ph =>
    cases ph with
    | code => exact .next (s.takeCode_pending p _)
    | rise => exact absurd rfl hl
  | pixelDataByte p b =>
    simp only [exec, execPixelDataByte]
    split
    · refine .settled ?_
      split
      · exact s.takePixelByte_pending p b
      · exact (LinkOnly.discardPixelByte s p).pending
    · exact .next (s.clockUntaken_pending p)
  | readbackLevelRead p =>
    simp only [exec, execReadbackLevelRead]
    split
    · split
      · split
        · exact .settled (by simp)
        · exact .same
      · exact .same
    · exact .same
  | validationEnd =>
    simp only [exec, execValidationEnd]
    split
    · split
      · exact .settled (s.enterValid_pending _ _)
      · exact .settled (by simp)
    · exact .same
  | geometrySweepEnd =>
    simp only [exec, execGeometrySweepEnd]
    split
    · exact .settled (by simp [State.sweptGeometry, State.mapPorts])
    · exact .same
  | railLost =>
    refine .settled ?_
    split
    · exact (State.trip_pending _ _).trans (s.withSupply_pending _)
    · exact s.withSupply_pending _
  | riseTimeout =>
    simp only [exec, execRiseTimeout]
    split
    · exact .settled (s.trip_pending _)
    · exact .same
  | zoneLapse z =>
    simp only [exec, execZoneLapse]
    split
    · exact .settled (by simp)
    · exact .same
  | _ => simp [isLinkEvent, isSupplyEvent, isEngineEvent, requestOf] at he hl hs hr

/-- Settles O2: every arm of the dispatch answers a next state, and no operation that it is made of writes the queue. -/
theorem everyCommandCompletes : Obligations.EveryCommandCompletes := exec_pending

/-! ## A step -/

/-- A step takes the command at the front and runs it with the rest (Log 1). -/
theorem step_cons {s : State} {c : Instr} {rest : List Instr} (h : s.pending = c :: rest) :
    step s = exec c (s.withPending rest) := by simp [step, h]

/-- With no command waiting the part idles (Log 2). -/
theorem step_nil {s : State} (h : s.pending = []) : step s = .next s := by simp [step, h]

/-- Settles O1: the two cases of the queue are the two of the step. -/
theorem stepRunsFrontCommand : Obligations.StepRunsFrontCommand := fun _ _ _ => ⟨step_cons, step_nil⟩

end Sys2Proof.Machine
end
